-- ==== Sys2Proof/Word.lean ====
section
/-! DEFINITION. The word types of PBCORE: nibble, byte and the 16-bit word of the host port and the
command register (spec 00_scope R7, 20_memory R74, 30_encoding R100). -/

namespace Sys2Proof

/-- A nibble: 4 bits (00_scope R7). -/
abbrev Nibble := BitVec 4

/-- A byte: 8 bits (00_scope R7). -/
abbrev Byte := BitVec 8

/-- A register index of the host port: 8 bits (20_memory R70). -/
abbrev Index := BitVec 8

/-- A command word (30_encoding R100, `CWW` = 16) or a value on the host port (20_memory R74,
`PORTW` = 16). -/
abbrev Word := BitVec 16

end Sys2Proof
end

