-- ==== Sys2Proof/Config.lean ====
section
/-! DEFINITION. The implementation parameters of spec 00_scope R6: the sizes the spec fixes, the
parameters it leaves OPEN, and the free value of the random-byte port. -/

namespace Sys2Proof.Config

/-- `PINMIN`: the smallest legal PIN length (R6). -/
abbrev pinMin : Nat := 4

/-- `PINMAX`: the largest legal PIN length and the number of digit registers (R6). -/
abbrev pinMax : Nat := 12

/-- `FLD8`: bytes of a format 0 to 3 block and of the 8-byte PAN field (R6). -/
abbrev fld8 : Nat := 8

/-- `FLD16`: bytes of the format-4 PIN field and of the 16-byte PAN field (R6). -/
abbrev fld16 : Nat := 16

/-- `PANMAX`: bytes of the PAN register file (R6, decision D12). -/
abbrev panMax : Nat := 10

/-- `NMAX`: bytes of the nonce register file (R6, decision D13). -/
abbrev nonceMax : Nat := 8

/-- The answer of the random-byte source to its request number `n`, where the state supplies none
(42_padding R170: every one of the 256 values is possible at every request, independently of every
other and of all registers). A free value: no body, so nothing about it can be proved.
Log entry 2 (DESIGN CHOICE, safe). -/
opaque rngByte : Nat → Byte

/-- `LAT`: clock cycles from the `CMD` write of a command word to its completion (R6, R351; OPEN),
where it completes. No rule reads it and the model has no time. Whether it depends on operand values the
spec leaves open, and neither may be assumed (93 U9, 91 N21). DESIGN CHOICE, log entry 7: it is a free
value for each word and each number `execution` of the run's executions, so two executions of one word,
on the same or on other operands, may or may not take equally long. -/
opaque latency : (cw : Word) → (execution : Nat) → Nat

/-- `REGBASE`: where the platform places register index 0 on its bus (R6, R71; OPEN). No rule reads
it. Log entry 7. -/
opaque regBase : Nat

/-- The platform-chosen function of the register index that is added to `REGBASE` (R71; OPEN). -/
opaque busOffset : Index → Nat

/-- The bus address of a register index (R71). No rule reads it: the model's interface is
`HostWrite` and `HostRead` over indices. -/
def busAddress (i : Index) : Nat := regBase + busOffset i

end Sys2Proof.Config
end

