-- ==== Sys2Proof/Syntax.lean ====
section
/-! DEFINITION. The commands of PBCORE: one constructor per row of the opcode table
(spec 30_encoding R104). -/

namespace Sys2Proof

/-- The 19 commands (30_encoding R104). Every operand but `PACK`'s two immediates is a register
named implicitly by the command (R103, 10_state R56). -/
inductive Instr where
  /-- `NOP`, 0x0000 (R280). -/
  | nop
  /-- `CLR`, 0x0100 (R282). -/
  | clr
  /-- `ENC0`, 0x1000 (R203). -/
  | enc0
  /-- `ENC1`, 0x1100 (R204). -/
  | enc1
  /-- `ENC2`, 0x1200 (R205). -/
  | enc2
  /-- `ENC3`, 0x1300 (R206). -/
  | enc3
  /-- `ENC4`, 0x1400 (R207). -/
  | enc4
  /-- `DEC0`, 0x2000 (R235). -/
  | dec0
  /-- `DEC1`, 0x2100 (R236). -/
  | dec1
  /-- `DEC2`, 0x2200 (R237). -/
  | dec2
  /-- `DEC3`, 0x2300 (R238). -/
  | dec3
  /-- `DEC4`, 0x2400 (R239). -/
  | dec4
  /-- `GETFMT`, 0x3000 (R261). -/
  | getfmt
  /-- `DECODE`, 0x3100 (R263). -/
  | decode
  /-- `PACK a, b`, 0x40ab (R134): `a` the control nibble to write, `b` the fill digit (R103). -/
  | pack (a b : Nibble)
  /-- `UNPACK`, 0x4100 (R135). -/
  | unpack
  /-- `DRV64`, 0x4200 (R155). -/
  | drv64
  /-- `DRV128`, 0x4300 (R156). -/
  | drv128
  /-- `XOR`, 0x4400 (R192). -/
  | xor
deriving DecidableEq, Repr

end Sys2Proof
end

