-- ==== Sys2Proof/Machine/State.lean ====
section
/-! DEFINITION. The state of PBCORE: every register of spec 10_state R49 and the two scratch
registers, with the two agents around it (the host's pending port operations and the random-byte
source) as plain data; the reasons a step can stop; the state after reset. -/

namespace Sys2Proof.Machine

/-- The input registers (10_state R30, R34 to R42): only the host writes them, and `CLR`. -/
structure InputRegs where
  /-- `PINI[0..11]` (R34). -/
  pini : Vector Nibble 12
  /-- `PINLENI` (R35). -/
  pinleni : Byte
  /-- `PAN[0..9]` (R36). -/
  pan : Vector Byte 10
  /-- `PANLEN` (R37). -/
  panlen : Byte
  /-- `NONCE[0..7]` (R38). -/
  nonce : Vector Byte 8
  /-- `NONCELEN` (R39). -/
  noncelen : Byte
  /-- `BLKI[0..15]` (R40). -/
  blki : Vector Byte 16
  /-- `BLKLENI` (R41). -/
  blkleni : Byte
  /-- `FLDI[0..15]` (R42). -/
  fldi : Vector Byte 16
deriving DecidableEq, Repr

/-- The output registers (10_state R30, R32, R33, R43 to R48): only PBCORE writes them. -/
structure OutputRegs where
  /-- `STATUS` (R32). -/
  status : Byte
  /-- `FMTO` (R33). -/
  fmto : Nibble
  /-- `PINO[0..11]` (R43). -/
  pino : Vector Nibble 12
  /-- `PINLENO` (R44). -/
  pinleno : Byte
  /-- `BLKO[0..15]` (R45). -/
  blko : Vector Byte 16
  /-- `BLKLENO` (R46). -/
  blkleno : Byte
  /-- `FLDO[0..15]` (R47). -/
  fldo : Vector Byte 16
  /-- `FLDLENO` (R48). -/
  fldleno : Byte
deriving DecidableEq, Repr

/-- The scratch registers (10_state R53, R54): internal, not reachable from the port. -/
structure ScratchRegs where
  /-- `PF[0..15]`, the PIN field (R53). -/
  pf : Vector Byte 16
  /-- `NF[0..15]`, the PAN field (R54). -/
  nf : Vector Byte 16
deriving DecidableEq, Repr

/-- Every input register zero (10_state R58). -/
def InputRegs.zero : InputRegs where
  pini := Vector.replicate 12 0
  pinleni := 0
  pan := Vector.replicate 10 0
  panlen := 0
  nonce := Vector.replicate 8 0
  noncelen := 0
  blki := Vector.replicate 16 0
  blkleni := 0
  fldi := Vector.replicate 16 0

/-- Every output register zero (10_state R58; `STATUS` = 0x00 is `ST_OK`). -/
def OutputRegs.zero : OutputRegs where
  status := 0
  fmto := 0
  pino := Vector.replicate 12 0
  pinleno := 0
  blko := Vector.replicate 16 0
  blkleno := 0
  fldo := Vector.replicate 16 0
  fldleno := 0

/-- Both scratch registers zero (10_state R55). -/
def ScratchRegs.zero : ScratchRegs where
  pf := Vector.replicate 16 0
  nf := Vector.replicate 16 0

/-- What the outside does in one step: a port operation of the host (00_scope R13, R18), a reset, or a
test's word on the random-byte source. Log entries 1, 2, 4 and 5. -/
inductive PortOp where
  /-- `HostWrite(idx, v)` (20_memory R74). -/
  | write (idx : Index) (v : Word)
  /-- `HostRead(idx)` (20_memory R75). -/
  | read (idx : Index)
  /-- `HostWrite(idx, w)` with `w` the value the host's last `HostRead` returned: the second half of
  `MVBLK` and `MVFLD` (30_encoding R110). -/
  | copy (idx : Index)
  /-- `HostRead(idx)` of an `EXPECT`: the test fails unless the value read equals `v` (R110). -/
  | expect (idx : Index) (v : Word)
  /-- A reset while no command is executing (70_reset_and_hazards R340). -/
  | reset
  /-- A reset that arrives while the command of the `CMD` write of `cw` is executing, after that
  command has made `requests` requests to the random-byte source (R342, R350). -/
  | resetDuring (cw : Word) (requests : Nat)
  /-- `RNG` (30_encoding R110), no host operation: from here on the random-byte source has `bytes` to
  answer with. Log entries 2 and 14. -/
  | supply (bytes : List Byte)
deriving DecidableEq, Repr

/-- The host's side of the port: the MODEL's own fields, no register of PBCORE. -/
structure PortSide where
  /-- The operations still to come, first one first (00_scope R13, 20_memory R81). -/
  script : List PortOp
  /-- The value the last `HostRead` returned to the host (20_memory R75). -/
  rdata : Word
  /-- Whether every `EXPECT` so far has held (30_encoding R110). -/
  expectOk : Bool
deriving DecidableEq, Repr

/-- The random-byte source (42_padding R170): the MODEL's own fields, no register of PBCORE
(10_state R57: PBCORE counts no random bytes). -/
structure RngSource where
  /-- Supplied answers to the next requests, in order: a byte, or silence (`none`, 93 U3). Behind
  the last one the answers are the opaque `Config.rngByte`. -/
  answers : List (Option Byte)
  /-- How many requests the source has had. -/
  drawn : Nat
deriving DecidableEq, Repr

/-- The whole state: PBCORE's registers and the two agents around it (10_state R49, R53, R54,
00_scope R13, R14). There is no program counter, no flag and no memory (R50, R51, 20_memory R70). -/
structure State where
  inp : InputRegs
  out : OutputRegs
  scratch : ScratchRegs
  port : PortSide
  rng : RngSource
deriving DecidableEq, Repr

/-- Why a step can stop with a fault. -/
inductive Fault where
  /-- Raised by `withDraws` (`ENC1` with `NONCELEN` = 0, `ENC3`, `ENC4`) when the random-byte source
  does not answer a request: the command never completes and the port is blocked (00_scope R15,
  70_reset_and_hazards R350, 93 U3: `stuck`, the model has no next state). Safe. Log entry 3. -/
  | randomSourceSilent
deriving DecidableEq, Repr

/-- Why a step can be refused. -/
inductive Refusal where
  /-- Raised by an arm of `exec` whose instruction has no meaning yet: no arm does. Safe. -/
  | notModelled (mnemonic : String)
deriving DecidableEq, Repr

/-- The machine right after reset (70_reset_and_hazards R340): every register zero. The model's own
fields: no port operation pending (R341: idle until the first `CMD` write), nothing read, no answer
supplied (log entries 1, 2 and 5). -/
def State.reset : State where
  inp := .zero
  out := .zero
  scratch := .zero
  port := { script := [], rdata := 0, expectOk := true }
  rng := { answers := [], drawn := 0 }

/-- The outcome of a step or of an instruction. -/
abbrev Result := Host.Outcome State Fault Refusal

end Sys2Proof.Machine
end

