-- ==== Sys2Proof/Machine/Operands.lean ====
section
/-! DEFINITION. Operand forms: nibble addressing of byte arrays (spec 00_scope R8), 8-byte fields
inside 16-byte registers, and the operands a command reads from the input registers (10_state
R56). -/

namespace Sys2Proof.Machine

/-- The high nibble `b[7:4]` (00_scope R7). -/
def hiNib (b : Byte) : Nibble := b.extractLsb' 4 4

/-- The low nibble `b[3:0]` (00_scope R7). -/
def loNib (b : Byte) : Nibble := b.extractLsb' 0 4

/-- The byte with the given high and low nibble (00_scope R7, `a ++ b`). -/
def byteOf (h l : Nibble) : Byte := h ++ l

/-- `X[i]`; zero beyond the array, where no rule reads (log entry 10). -/
def byteAt {n : Nat} (X : Vector Byte n) (i : Nat) : Byte := X[i]?.getD 0

/-- `nib(X, k)`: the k-th nibble of `X` counted from the left (00_scope R8). -/
def nib {n : Nat} (X : Vector Byte n) (k : Nat) : Nibble :=
  if k % 2 = 0 then hiNib (byteAt X (k >>> 1)) else loNib (byteAt X (k >>> 1))

/-- `setnib(X, k, v)`: that nibble replaced, the other nibble of the byte unchanged (00_scope R8). -/
def setnib {n : Nat} (X : Vector Byte n) (k : Nat) (v : Nibble) : Vector Byte n :=
  X.setIfInBounds (k >>> 1)
    (if k % 2 = 0 then byteOf v (loNib (byteAt X (k >>> 1)))
     else byteOf (hiNib (byteAt X (k >>> 1))) v)

/-- The `n`-byte array whose k-th nibble is `f k` (00_scope R8, 20_memory R72). -/
def ofNibs (n : Nat) (f : Nat → Nibble) : Vector Byte n :=
  Vector.ofFn fun i : Fin n => byteOf (f (2 * i.val)) (f (2 * i.val + 1))

/-- Whether `p` holds of `nib(X, k)` for every `k` from `lo` to `hi - 1`. -/
def everyNib {n : Nat} (X : Vector Byte n) (lo hi : Nat) (p : Nibble → Bool) : Bool :=
  (List.range hi).all fun k => decide (k < lo) || p (nib X k)

/-- PIN digit number `k` of a digit array; zero beyond the array (log entry 10). -/
def digitAt (d : Vector Nibble 12) (k : Nat) : Nibble := d[k]?.getD 0

/-- Bytes 0 to 7 of a 16-byte array: an 8-byte block, or the first half of a format-4 field. -/
def first8 (X : Vector Byte 16) : Vector Byte 8 := Vector.ofFn fun i : Fin 8 => byteAt X i.val

/-- An 8-byte field in a 16-byte register: bytes 8 to 15 are 0x00 (10_state R45, R47). -/
def widen8 (F : Vector Byte 8) : Vector Byte 16 := Vector.ofFn fun i : Fin 16 => byteAt F i.val

/-- An 8-byte first half followed by the bytes `r` (42_padding R176: field byte `8 + j` is
`r[j]`). -/
def joinHalves (F : Vector Byte 8) (r : List Byte) : Vector Byte 16 :=
  Vector.ofFn fun i : Fin 16 => if i.val < 8 then byteAt F i.val else r.getD (i.val - 8) 0

/-- The block operand as an 8-byte field: `BLKI[0..7]` (10_state R40). -/
def InputRegs.blk8 (inp : InputRegs) : Vector Byte 8 := first8 inp.blki

/-- The control nibble `BLKI[0][7:4]` of the block operand (45_decode R230). -/
def InputRegs.controlNibble (inp : InputRegs) : Nibble := hiNib (byteAt inp.blki 0)

/-- The length nibble `BLKI[0][3:0]` of the block operand (45_decode R230). -/
def InputRegs.lengthNibble (inp : InputRegs) : Nibble := loNib (byteAt inp.blki 0)

/-- The decoded PIN length `L = BLKI[0][3:0]` as an 8-bit length (45_decode R230, 10_state R44). -/
def InputRegs.blockPinLen (inp : InputRegs) : Byte := inp.lengthNibble.setWidth 8

/-- `len & 0xF`, the masking of the packer layer (40_packer R131). -/
def maskLen (len : Byte) : Nat := (len &&& 0x0F).toNat

/-- `cap = 7 - (L >> 1)`, the padding capacity in bytes (42_padding R172). -/
def padCapacity (L : Nat) : Nat := 7 - (L >>> 1)

/-- The padding bytes of format 1 taken from the host nonce, last byte first:
`S[j] = NONCE[NONCELEN - 1 - j]` for `j` from 0 to `cap - 1` (42_padding R174). -/
def nonceSource (inp : InputRegs) (cap : Nat) : List Byte :=
  (List.range cap).map fun j => byteAt inp.nonce (inp.noncelen.toNat - 1 - j)

/-- The format tags (00_scope R12, 46_dispatch R262: a tagged variant over the five formats). -/
inductive Format where
  | f0
  | f1
  | f2
  | f3
  | f4
deriving DecidableEq, Repr

/-- The tag of a format, 0 to 4: its control nibble and the value of `FMTO` (10_state R33). -/
def Format.tag : Format → Nibble
  | .f0 => 0
  | .f1 => 1
  | .f2 => 2
  | .f3 => 3
  | .f4 => 4

/-- `size(fmt)`: 8 bytes for formats 0 to 3, 16 for format 4 (45_decode R230). -/
def Format.size : Format → Byte
  | .f0 => 8
  | .f1 => 8
  | .f2 => 8
  | .f3 => 8
  | .f4 => 16

/-- Whether the format's codec has the PAN as an operand: formats 0 and 3 (46_dispatch R262). -/
def Format.usesPan : Format → Bool
  | .f0 => true
  | .f1 => false
  | .f2 => false
  | .f3 => true
  | .f4 => false

end Sys2Proof.Machine
end

