-- ==== Sys2Proof/Machine/Flags.lean ====
section
/-! DEFINITION. PBCORE has no flags (spec 10_state R51): the only status a command leaves is its
result code. This file holds the codes (60_exceptions R300) and every validity check that selects
one, in the order of R303. -/

namespace Sys2Proof.Machine

/-- The result codes (60_exceptions R300). -/
inductive Code where
  | ok
  | arg
  | pinlen
  | size
  | format
  | integrity
  | nonce
  | illcmd
deriving DecidableEq, Repr

/-- The value of `STATUS` for a result code (60_exceptions R300). -/
def Code.toByte : Code → Byte
  | .ok => 0x00
  | .arg => 0x01
  | .pinlen => 0x02
  | .size => 0x03
  | .format => 0x04
  | .integrity => 0x05
  | .nonce => 0x06
  | .illcmd => 0x07

/-- `PANLEN = 0 or PANLEN > PANMAX`: the PAN operand is no argument (60_exceptions R302). -/
def panArgBad (inp : InputRegs) : Bool := inp.panlen == 0 || inp.panlen.toNat > Config.panMax

/-- A length outside 4 to 12, on the full value (44_encode R200, 45_decode R230). -/
def pinLenBad (L : Nat) : Bool := L < Config.pinMin || L > Config.pinMax

/-- Checks (1) to (3) of 44_encode R200, in that order; `argBad` is the encoder's own argument
check. -/
def encodeError (inp : InputRegs) (argBad : Bool) : Option Code :=
  if inp.pinleni == 0 || argBad then some .arg
  else if pinLenBad inp.pinleni.toNat then some .pinlen
  else none

/-- The checks of `ENC1` (44_encode R200, R204): (1) to (3) with `NONCELEN > NMAX` an argument error,
then the nonce length against the capacity. -/
def encode1Error (inp : InputRegs) : Option Code :=
  match encodeError inp (inp.noncelen.toNat > Config.nonceMax) with
  | some c => some c
  | none =>
    if inp.noncelen != 0 && inp.noncelen.toNat < padCapacity inp.pinleni.toNat then some .nonce
    else none

/-- Checks (1) to (4) of 45_decode R230 for a decoder of format `fmt`, in that order. -/
def decodeError (inp : InputRegs) (fmt : Format) : Option Code :=
  if inp.blkleni == 0 || (fmt.usesPan && panArgBad inp) then some .arg
  else if inp.blkleni != fmt.size then some .size
  else if inp.controlNibble != fmt.tag then some .format
  else if pinLenBad inp.lengthNibble.toNat then some .pinlen
  else none

/-- The first-byte consistency check of the masked formats (45_decode R232): the unmasked first byte
must be the one the format and length were read from. It never fails, and must be kept. -/
def firstByteOk (inp : InputRegs) (U : Vector Byte 8) : Bool := byteAt U 0 == byteAt inp.blki 0

/-- The fill check (45_decode R233): nibbles `2 + L` to 15 of the field equal the fill digit. -/
def fillOk (W : Vector Byte 8) (L : Nat) (fill : Nibble) : Bool :=
  everyNib W (2 + L) 16 fun v => v == fill

/-- The alphabet check of format 3 (45_decode R238): PIN nibbles 0 to 9, padding nibbles 0xA to
0xF. -/
def alphabetOk (U : Vector Byte 8) (L : Nat) : Bool :=
  (everyNib U 2 (2 + L) fun v => v.toNat ≤ 9) && everyNib U (2 + L) 16 fun v => 0xA ≤ v.toNat

/-- `ident(b0, len)` (46_dispatch R260): a format, or the failure; the length is examined first and
the control nibble second. -/
def ident (b0 len : Byte) : Except Code Format :=
  if len = 0 then .error .arg
  else if len ≠ 8 ∧ len ≠ 16 then .error .size
  else if len = 8 then
    if hiNib b0 = 0 then .ok .f0
    else if hiNib b0 = 1 then .ok .f1
    else if hiNib b0 = 2 then .ok .f2
    else if hiNib b0 = 3 then .ok .f3
    else .error .format
  else if hiNib b0 = 4 then .ok .f4
  else .error .format

/-- The checks of `XOR` on `BLKLENI` (43_combiner R192). -/
def xorError (inp : InputRegs) : Option Code :=
  if inp.blkleni == 0 then some .arg
  else if inp.blkleni != 8 && inp.blkleni != 16 then some .size
  else none

/-- The check of `PACK` and `UNPACK`: `(PINLENI & 0xF) > 12` (40_packer R134, R135). -/
def packError (inp : InputRegs) : Option Code :=
  if maskLen inp.pinleni > Config.pinMax then some .pinlen else none

/-- The check of `DRV64` and `DRV128` (41_pan_field R155, R156). -/
def deriveError (inp : InputRegs) : Option Code :=
  if panArgBad inp then some .arg else none

end Sys2Proof.Machine
end

