-- ==== Sys2Proof/Machine/Ops.lean ====
section
/-! DEFINITION. The named operations over the registers, shared by every command: clearing the
outputs (spec 60_exceptions R305), loading scratch (10_state R53, R54), completing with success
(`done`, 00_scope R10), failing (`fail`, 60_exceptions R306: what this hardware has in place of
taking an exception; R308, R309: there is no trap entry and no return), drawing random bytes
(42_padding R170, R171), and reset (70_reset_and_hazards R340). -/

namespace Sys2Proof.Machine

/-- Output clearing: every command other than `NOP` begins by zeroing every output register
(60_exceptions R305, 30_encoding R101 step 5). -/
def State.clearOutputs (s : State) : State := { s with out := .zero }

/-- Load the PIN field scratch `PF` (10_state R53). -/
def State.loadPF (s : State) (F : Vector Byte 16) : State :=
  { s with scratch := { s.scratch with pf := F } }

/-- Load the PAN field scratch `NF` (10_state R54). -/
def State.loadNF (s : State) (N : Vector Byte 16) : State :=
  { s with scratch := { s.scratch with nf := N } }

/-- `done` with the outputs `o` (00_scope R10): the writes the rule lists, `STATUS <- ST_OK`, and zero
scratch (10_state R55, 60_exceptions R307). -/
def State.finish (s : State) (o : OutputRegs) : State :=
  { s with out := { o with status := Code.ok.toByte }, scratch := .zero }

/-- `fail ST_x` (60_exceptions R306): `STATUS <- ST_x`, every other output register zero, scratch
zero, no input register changes, no random byte drawn. -/
def State.fail (s : State) (c : Code) : State :=
  { s with out := { OutputRegs.zero with status := c.toByte }, scratch := .zero }

/-- A command whose checks come first: cleared outputs, then the failure the check found, or the
command's body (30_encoding R101 step 5, 60_exceptions R302, R303). -/
def State.checked (s : State) (err : Option Code) (body : State → State) : State :=
  match err with
  | some c => s.clearOutputs.fail c
  | none => body s.clearOutputs

/-- The outputs of a command that produces an 8-byte block: `BLKO[8..15] <- 0x00`, `BLKLENO <- 8`. -/
def OutputRegs.block8 (F : Vector Byte 8) : OutputRegs :=
  { OutputRegs.zero with blko := widen8 F, blkleno := 8 }

/-- The outputs of a command that produces a 16-byte block: `BLKLENO <- 16`. -/
def OutputRegs.block16 (F : Vector Byte 16) : OutputRegs :=
  { OutputRegs.zero with blko := F, blkleno := 16 }

/-- The outputs of `DRV64`: `FLDO[8..15] <- 0x00`, `FLDLENO <- 8` (41_pan_field R155). -/
def OutputRegs.field8 (N : Vector Byte 8) : OutputRegs :=
  { OutputRegs.zero with fldo := widen8 N, fldleno := 8 }

/-- The outputs of `DRV128`: `FLDLENO <- 16` (41_pan_field R156). -/
def OutputRegs.field16 (N : Vector Byte 16) : OutputRegs :=
  { OutputRegs.zero with fldo := N, fldleno := 16 }

/-- The outputs of a command that delivers a PIN: `PINO[k] <- d[k]` for the digits there are, 0x0 for
the rest; `PINLENO`; `FMTO` (45_decode R234, 40_packer R135). -/
def OutputRegs.digits (d : List Nibble) (len : Byte) (fmt : Nibble) : OutputRegs :=
  { OutputRegs.zero with
    pino := Vector.ofFn fun k : Fin 12 => d.getD k.val 0, pinleno := len, fmto := fmt }

/-- The outputs of `GETFMT`: `FMTO <- t` (46_dispatch R261). -/
def OutputRegs.formatTag (t : Nibble) : OutputRegs := { OutputRegs.zero with fmto := t }

/-- One request to the random-byte source (42_padding R170): the next supplied answer, or the free
value behind them; `none` when the source stays silent (93 U3). -/
def rngByte (g : RngSource) : Option (Byte × RngSource) :=
  match g.answers with
  | [] => some (Config.rngByte g.drawn, { g with drawn := g.drawn + 1 })
  | none :: _ => none
  | some b :: rest => some (b, { answers := rest, drawn := g.drawn + 1 })

/-- `n` requests in order, answered `r[0], r[1], ...` (42_padding R171). -/
def drawBytes : Nat → RngSource → Option (List Byte × RngSource)
  | 0, g => some ([], g)
  | n + 1, g =>
    match rngByte g with
    | none => none
    | some (b, g₁) =>
      match drawBytes n g₁ with
      | none => none
      | some (bs, g₂) => some (b :: bs, g₂)

/-- The state with the random-byte source moved on to `g`. -/
def State.withRng (s : State) (g : RngSource) : State := { s with rng := g }

/-- Draw `n` random bytes and go on with them; stuck when the source does not answer (93 U3). -/
def State.withDraws (s : State) (n : Nat) (k : List Byte → State → State) : Result :=
  match drawBytes n s.rng with
  | none => .fault .randomSourceSilent
  | some (r, g) => .next (k r (s.withRng g))

/-- A command that draws `n` random bytes after all its checks have passed (42_padding R171: a command
that fails draws nothing). -/
def State.checkedDraws (s : State) (err : Option Code) (n : Nat)
    (body : List Byte → State → State) : Result :=
  match err with
  | some c => .next (s.clearOutputs.fail c)
  | none => s.clearOutputs.withDraws n body

/-- Every register zero (70_reset_and_hazards R340, 47_control R282): what a reset and `CLR` leave.
The host's script and the random-byte source are not PBCORE's and stay (log entry 4). -/
def State.zeroRegisters (s : State) : State :=
  { s with inp := .zero, out := .zero, scratch := .zero }

/-- The source when a test states the bytes it will answer (30_encoding R110 `RNG`). R110 does not say
what becomes of bytes that an earlier `RNG` stated and no command has drawn: here they stay and are drawn
first (DESIGN CHOICE, log entry 14). -/
def RngSource.supply (g : RngSource) (bytes : List Byte) : RngSource :=
  { g with answers := g.answers ++ bytes.map some }

/-- The source after `n` requests of a command that a reset abandoned (log entry 4). -/
def RngSource.skip (g : RngSource) (n : Nat) : RngSource :=
  { answers := g.answers.drop n, drawn := g.drawn + n }

end Sys2Proof.Machine
end

