-- ==== Sys2Proof/Machine/Combiner.lean ====
section
/-! DEFINITION. The field combiner: `XOR` (spec 43_combiner). -/

namespace Sys2Proof.Machine

/-- `combine(a, b)` (R190): `c[i] = a[i] ^ b[i]`. -/
def combine {n : Nat} (a b : Vector Byte n) : Vector Byte n :=
  Vector.ofFn fun i : Fin n => a[i] ^^^ b[i]

/-- `XOR` (R192). With `BLKLENI` = 8 only bytes 0 to 7 of the operands are read. -/
def execXor (s : State) : Result :=
  .next (s.checked (xorError s.inp) fun s =>
    if s.inp.blkleni = 8 then
      s.finish (.block8 (combine s.inp.blk8 (first8 s.inp.fldi)))
    else s.finish (.block16 (combine s.inp.blki s.inp.fldi)))

end Sys2Proof.Machine
end

