-- ==== Sys2Proof/Machine/Control.lean ====
section
/-! DEFINITION. The control commands `NOP`, `CLR` (spec 47_control) and the response to an illegal
word (30_encoding R106). -/

namespace Sys2Proof.Machine

/-- `NOP` (R280): no register changes, `STATUS` included; the outputs are not zeroed. -/
def execNop (s : State) : Result := .next s

/-- `CLR` (R282): every register zero, inputs included; `STATUS <- ST_OK` is 0x00. -/
def execClr (s : State) : Result := .next s.zeroRegisters

/-- An illegal word (30_encoding R106): executed as a failing command with `ST_ILLCMD`; outputs
zeroed, no input register changes, nothing drawn. -/
def illegalWord (s : State) : Result := .next (s.clearOutputs.fail .illcmd)

end Sys2Proof.Machine
end

