-- ==== Sys2Proof/Machine/Packer.lean ====
section
/-! DEFINITION. The digit packer and unpacker: `PACK`, `UNPACK` (spec 40_packer). -/

namespace Sys2Proof.Machine

/-- `pack(fmt, d, len, fill)` (R130): control nibble, masked length, the digits, fill. The one packer
of every format (R136). The length is masked to its low 4 bits (R131). -/
def pack (fmt : Nibble) (d : Vector Nibble 12) (len : Byte) (fill : Nibble) : Vector Byte 8 :=
  ofNibs 8 fun k =>
    if k = 0 then fmt
    else if k = 1 then loNib len
    else if k - 2 < maskLen len then digitAt d (k - 2)
    else fill

/-- `unpack(X, len)` (R132): the `len & 0xF` nibbles from the second byte on; `X[0]` is not read and
no digit range is checked. -/
def unpack (X : Vector Byte 8) (len : Byte) : List Nibble :=
  (List.range (maskLen len)).map fun k => nib X (2 + k)

/-- `PACK a, b` (R134). -/
def execPack (a b : Nibble) (s : State) : Result :=
  .next (s.checked (packError s.inp) fun s =>
    s.finish (.block8 (pack a s.inp.pini s.inp.pinleni b)))

/-- `UNPACK` (R135). `BLKI[0]`, `BLKI[8..15]` and `BLKLENI` are not looked at; `FMTO` stays zero. -/
def execUnpack (s : State) : Result :=
  .next (s.checked (packError s.inp) fun s =>
    s.finish (.digits (unpack s.inp.blk8 s.inp.pinleni) (s.inp.pinleni &&& 0x0F) 0))

end Sys2Proof.Machine
end

