-- ==== Sys2Proof/Machine/Padding.lean ====
section
/-! DEFINITION. The padding constructions of formats 1 and 3 (spec 42_padding). -/

namespace Sys2Proof.Machine

/-- `padnib(b) = ((b * 6) >> 8) + 0xA` (R173), computed without overflow. -/
def padnib (b : Byte) : Nibble := BitVec.ofNat 4 (((b.toNat * 6) >>> 8) + 0xA)

/-- `first = 1 + (L >> 1)`: the first byte that is not wholly PIN digits (R172). -/
def firstPadByte (L : Nat) : Nat := 1 + (L >>> 1)

/-- `pad1(F, L, S)` (R172): the bytes from `first` on become `S[0], S[1], ...`; for odd `L` the first
of them keeps the last PIN digit in its high nibble and takes only the low nibble of `S[0]`. -/
def pad1 (F : Vector Byte 8) (L : Nat) (S : List Byte) : Vector Byte 8 :=
  Vector.ofFn fun i : Fin 8 =>
    if i.val < firstPadByte L then byteAt F i.val
    else if i.val = firstPadByte L ∧ L % 2 = 1 then
      (byteAt F i.val &&& 0xF0) ||| (S.getD 0 0 &&& 0x0F)
    else S.getD (i.val - firstPadByte L) 0

/-- `pad3(F, L, r)` (R175): nibble `2 + L + k` becomes `padnib(r[k])`. -/
def pad3 (F : Vector Byte 8) (L : Nat) (r : List Byte) : Vector Byte 8 :=
  ofNibs 8 fun k => if k < 2 + L then nib F k else padnib (r.getD (k - (2 + L)) 0)

end Sys2Proof.Machine
end

