-- ==== Sys2Proof/Machine/PanField.lean ====
section
/-! DEFINITION. The PAN field deriver: `DRV64`, `DRV128` (spec 41_pan_field). -/

namespace Sys2Proof.Machine

/-- The scan of `derive64` (R150) over the nibbles `i - 1` down to 0 of the PAN: `seen` is
`seen_check`, `pos` the next output nibble, `N` the field so far. -/
def scan64 (P : Vector Byte 10) : Nat → Bool → Nat → Vector Byte 8 → Vector Byte 8
  | 0, _, _, N => N
  | i + 1, seen, pos, N =>
    if nib P i = 0xF then scan64 P i seen pos N
    else if seen = false then scan64 P i true pos N
    else if pos < 4 then N
    else scan64 P i seen (pos - 1) (setnib N pos (nib P i))

/-- `derive64(P, n)` (R150): the 12-digit window of the first `n` PAN bytes, check digit and pad
nibbles left out, right-justified in an 8-byte field. -/
def derive64 (P : Vector Byte 10) (n : Nat) : Vector Byte 8 :=
  scan64 P (2 * n) false 15 (Vector.replicate 8 0)

/-- The digit count of `derive128` (R153): the nibbles left of the trailing run of pad nibbles. -/
def digitCount (P : Vector Byte 10) : Nat → Nat
  | 0 => 0
  | c + 1 => if nib P c = 0xF then digitCount P c else c + 1

/-- `derive128(P, n)` (R153): the length indicator `M`, then the PAN digits, check digit included,
right-justified in nibbles 1 to 12 when there are at most 12, left-justified from nibble 1
otherwise. -/
def derive128 (P : Vector Byte 10) (n : Nat) : Vector Byte 16 :=
  let c := digitCount P (2 * n)
  if c ≤ 12 then
    ofNibs 16 fun k => if 13 - c ≤ k ∧ k ≤ 12 then nib P (k - (13 - c)) else 0
  else
    ofNibs 16 fun k =>
      if k = 0 then BitVec.ofNat 4 (c - 12) else if k ≤ c then nib P (k - 1) else 0

/-- The 8-byte PAN field of the PAN operand (R155). -/
def InputRegs.panField8 (inp : InputRegs) : Vector Byte 8 := derive64 inp.pan inp.panlen.toNat

/-- The 16-byte PAN field of the PAN operand (R156). -/
def InputRegs.panField16 (inp : InputRegs) : Vector Byte 16 := derive128 inp.pan inp.panlen.toNat

/-- `DRV64` (R155). -/
def execDrv64 (s : State) : Result :=
  .next (s.checked (deriveError s.inp) fun s => s.finish (.field8 s.inp.panField8))

/-- `DRV128` (R156). -/
def execDrv128 (s : State) : Result :=
  .next (s.checked (deriveError s.inp) fun s => s.finish (.field16 s.inp.panField16))

end Sys2Proof.Machine
end

