-- ==== Sys2Proof/Machine/Encoders.lean ====
section
/-! DEFINITION. The five format encoders: `ENC0` to `ENC4` (spec 44_encode). The PIN field is built
in `PF` and the PAN field in `NF` (R208); completion zeroes both. -/

namespace Sys2Proof.Machine

/-- `F = pack(fmt, PINI, PINLENI, fill)`, in `PF` (R203 to R207). -/
def State.buildPinField (s : State) (fmt fill : Nibble) : State :=
  s.loadPF (widen8 (pack fmt s.inp.pini s.inp.pinleni fill))

/-- `N = derive64(PAN, PANLEN)`, in `NF` (R203, R206, 45_decode R235, R238). -/
def State.buildPanField (s : State) : State := s.loadNF (widen8 s.inp.panField8)

/-- The PIN field as an 8-byte field: `PF[0..7]`. -/
def State.pinField (s : State) : Vector Byte 8 := first8 s.scratch.pf

/-- The PAN field as an 8-byte field: `NF[0..7]`. -/
def State.panField (s : State) : Vector Byte 8 := first8 s.scratch.nf

/-- `BLKO[0..7] <- combine(F, N)` and completion: the tail of `ENC0` and `ENC3` (R203, R206). -/
def State.finishMasked (s : State) : State := s.finish (.block8 (combine s.pinField s.panField))

/-- The tail of `ENC1` (R204): pad the PIN field with the bytes `S` and deliver it. -/
def State.finishPadded1 (S : List Byte) (s : State) : State :=
  let t := s.buildPinField 0x1 0x0
  let t := t.loadPF (widen8 (pad1 t.pinField t.inp.pinleni.toNat S))
  t.finish (.block8 t.pinField)

/-- The tail of `ENC3` (R206): pad the PIN field with the digits of the draws `r`, mask, deliver. -/
def State.finishPadded3 (r : List Byte) (s : State) : State :=
  let t := s.buildPinField 0x3 0x0
  let t := t.loadPF (widen8 (pad3 t.pinField t.inp.pinleni.toNat r))
  t.buildPanField.finishMasked

/-- The tail of `ENC4` (R207): PIN field with fill 0xA, then the 8 draws. -/
def State.finishHalves4 (r : List Byte) (s : State) : State :=
  let t := s.buildPinField 0x4 0xA
  let t := t.loadPF (joinHalves t.pinField r)
  t.finish (.block16 t.scratch.pf)

/-- `ENC0` (R203). -/
def execEnc0 (s : State) : Result :=
  .next (s.checked (encodeError s.inp (panArgBad s.inp)) fun s =>
    (s.buildPinField 0x0 0xF).buildPanField.finishMasked)

/-- `ENC1` (R204): host nonce when `NONCELEN` is not 0, `cap` draws otherwise. -/
def execEnc1 (s : State) : Result :=
  let cap := padCapacity s.inp.pinleni.toNat
  if s.inp.noncelen = 0 then
    s.checkedDraws (encode1Error s.inp) cap fun r s => s.finishPadded1 r
  else
    .next (s.checked (encode1Error s.inp) fun s => s.finishPadded1 (nonceSource s.inp cap))

/-- `ENC2` (R205). -/
def execEnc2 (s : State) : Result :=
  .next (s.checked (encodeError s.inp false) fun s =>
    let t := s.buildPinField 0x2 0xF
    t.finish (.block8 t.pinField))

/-- `ENC3` (R206): `14 - PINLENI` draws. -/
def execEnc3 (s : State) : Result :=
  s.checkedDraws (encodeError s.inp (panArgBad s.inp)) (14 - s.inp.pinleni.toNat)
    fun r s => s.finishPadded3 r

/-- `ENC4` (R207): 8 draws. -/
def execEnc4 (s : State) : Result :=
  s.checkedDraws (encodeError s.inp false) 8 fun r s => s.finishHalves4 r

end Sys2Proof.Machine
end

