-- ==== Sys2Proof/Machine/Decoders.lean ====
section
/-! DEFINITION. The five format decoders: `DEC0` to `DEC4` (spec 45_decode). `decodeBlock` is the
multiplexer the dispatcher uses (46_dispatch R262). -/

namespace Sys2Proof.Machine

/-- `U = combine(BLKI[0..7], N)`, in `PF`, with `N` in `NF` (R235, R238). -/
def State.unmask (s : State) : State :=
  let t := s.buildPanField
  t.loadPF (widen8 (combine t.inp.blk8 t.panField))

/-- The field as it stands in the block, in `PF` (R236, R237, R239). -/
def State.takeBlock (s : State) : State := s.loadPF (widen8 s.inp.blk8)

/-- Check (5) and step (6) of R230: the integrity check's verdict, then the digits of the field in
`PF`, their number and the format. -/
def State.deliver (s : State) (fmt : Format) (good : Bool) : State :=
  if good then
    s.finish (.digits (unpack s.pinField s.inp.blockPinLen) s.inp.blockPinLen fmt.tag)
  else s.fail .integrity

/-- Format 0 after the checks of R230: unmask, first byte, fill 0xF (R235, R232, R233). -/
def State.decodeBody0 (s : State) : State :=
  let t := s.unmask
  t.deliver .f0 (firstByteOk t.inp t.pinField &&
    fillOk t.pinField t.inp.lengthNibble.toNat 0xF)

/-- Format 1 after the checks of R230: no further check (R236). -/
def State.decodeBody1 (s : State) : State := s.takeBlock.deliver .f1 true

/-- Format 2 after the checks of R230: fill 0xF (R237, R233). -/
def State.decodeBody2 (s : State) : State :=
  let t := s.takeBlock
  t.deliver .f2 (fillOk t.pinField t.inp.lengthNibble.toNat 0xF)

/-- Format 3 after the checks of R230: unmask, first byte, alphabet (R238, R232). -/
def State.decodeBody3 (s : State) : State :=
  let t := s.unmask
  t.deliver .f3 (firstByteOk t.inp t.pinField &&
    alphabetOk t.pinField t.inp.lengthNibble.toNat)

/-- Format 4 after the checks of R230: fill 0xA in bytes 0 to 7 (R239, R233). -/
def State.decodeBody4 (s : State) : State :=
  let t := s.takeBlock
  t.deliver .f4 (fillOk t.pinField t.inp.lengthNibble.toNat 0xA)

/-- The decoder of a format (R235 to R239; 46_dispatch R262: the pseudocode of `DECt`). -/
def State.decodeBlock (s : State) (fmt : Format) : State :=
  s.checked (decodeError s.inp fmt) fun s =>
    match fmt with
    | .f0 => s.decodeBody0
    | .f1 => s.decodeBody1
    | .f2 => s.decodeBody2
    | .f3 => s.decodeBody3
    | .f4 => s.decodeBody4

/-- `DEC0` (R235). -/
def execDec0 (s : State) : Result := .next (s.decodeBlock .f0)

/-- `DEC1` (R236). -/
def execDec1 (s : State) : Result := .next (s.decodeBlock .f1)

/-- `DEC2` (R237). -/
def execDec2 (s : State) : Result := .next (s.decodeBlock .f2)

/-- `DEC3` (R238). -/
def execDec3 (s : State) : Result := .next (s.decodeBlock .f3)

/-- `DEC4` (R239). -/
def execDec4 (s : State) : Result := .next (s.decodeBlock .f4)

end Sys2Proof.Machine
end

