-- ==== Sys2Proof/Machine/Dispatcher.lean ====
section
/-! DEFINITION. The format dispatcher: `GETFMT`, `DECODE` (spec 46_dispatch). -/

namespace Sys2Proof.Machine

/-- `ident(BLKI[0], BLKLENI)` (R260). -/
def InputRegs.identify (inp : InputRegs) : Except Code Format :=
  ident (byteAt inp.blki 0) inp.blkleni

/-- `GETFMT` (R261). -/
def execGetfmt (s : State) : Result :=
  match s.inp.identify with
  | .error c => .next (s.clearOutputs.fail c)
  | .ok t => .next (s.clearOutputs.finish (.formatTag t.tag))

/-- `DECODE` (R263): identify, then run the decoder of that format; there is no default route
(R262). -/
def execDecode (s : State) : Result :=
  match s.inp.identify with
  | .error c => .next (s.clearOutputs.fail c)
  | .ok t => .next (s.clearOutputs.decodeBlock t)

end Sys2Proof.Machine
end

