-- ==== Sys2Proof/Machine/Dispatch.lean ====
section
/-! DEFINITION. `exec`: one arm per command (spec 30_encoding R104), each one call of its meaning. -/

namespace Sys2Proof.Machine

def exec (i : Instr) (s : State) : Host.Outcome State Fault Refusal :=
  match i with
  | .nop => Sys2Proof.Machine.execNop s
  | .clr => Sys2Proof.Machine.execClr s
  | .enc0 => Sys2Proof.Machine.execEnc0 s
  | .enc1 => Sys2Proof.Machine.execEnc1 s
  | .enc2 => Sys2Proof.Machine.execEnc2 s
  | .enc3 => Sys2Proof.Machine.execEnc3 s
  | .enc4 => Sys2Proof.Machine.execEnc4 s
  | .dec0 => Sys2Proof.Machine.execDec0 s
  | .dec1 => Sys2Proof.Machine.execDec1 s
  | .dec2 => Sys2Proof.Machine.execDec2 s
  | .dec3 => Sys2Proof.Machine.execDec3 s
  | .dec4 => Sys2Proof.Machine.execDec4 s
  | .getfmt => Sys2Proof.Machine.execGetfmt s
  | .decode => Sys2Proof.Machine.execDecode s
  | .pack a b => Sys2Proof.Machine.execPack a b s
  | .unpack => Sys2Proof.Machine.execUnpack s
  | .drv64 => Sys2Proof.Machine.execDrv64 s
  | .drv128 => Sys2Proof.Machine.execDrv128 s
  | .xor => Sys2Proof.Machine.execXor s

end Sys2Proof.Machine
end

