-- ==== Sys2Proof/Decode.lean ====
section
/-! DEFINITION. Decoding and encoding of command words (spec 30_encoding R100 to R106). -/

namespace Sys2Proof

/-- The field `OPC = CW[15:8]` (R100). -/
def opcField (cw : Word) : Byte := cw.extractLsb' 8 8

/-- The field `A = CW[7:4]` (R100). -/
def aField (cw : Word) : Nibble := cw.extractLsb' 4 4

/-- The field `B = CW[3:0]` (R100). -/
def bField (cw : Word) : Nibble := cw.extractLsb' 0 4

/-- The word with the fields `opc`, `a`, `b` (R100). -/
def commandWord (opc : Byte) (a b : Nibble) : Word := opc ++ a ++ b

/-- Why a word selects no command (R101 step 3, R106). -/
inductive Illegal where
  /-- The opcode is not one of the 19 of R104. -/
  | unassignedOpcode (opc : Byte)
  /-- A format-Z opcode with `A` or `B` not zero (R102). -/
  | nonzeroImmediates (opc : Byte) (a b : Nibble)
deriving DecidableEq, Repr

/-- What an opcode selects: a format-Z command, or the format-P command `PACK` (R102). -/
inductive Selected where
  | z (i : Instr)
  | p
deriving DecidableEq, Repr

/-- The `OPC` column of R104. A decoder must use the table and not R105's structure of the opcode. -/
def selectOpcode (opc : Byte) : Option Selected :=
  match opc.toNat with
  | 0x00 => some (.z .nop)
  | 0x01 => some (.z .clr)
  | 0x10 => some (.z .enc0)
  | 0x11 => some (.z .enc1)
  | 0x12 => some (.z .enc2)
  | 0x13 => some (.z .enc3)
  | 0x14 => some (.z .enc4)
  | 0x20 => some (.z .dec0)
  | 0x21 => some (.z .dec1)
  | 0x22 => some (.z .dec2)
  | 0x23 => some (.z .dec3)
  | 0x24 => some (.z .dec4)
  | 0x30 => some (.z .getfmt)
  | 0x31 => some (.z .decode)
  | 0x40 => some .p
  | 0x41 => some (.z .unpack)
  | 0x42 => some (.z .drv64)
  | 0x43 => some (.z .drv128)
  | 0x44 => some (.z .xor)
  | _ => none

/-- Decoding of a command word (R101): total, every one of the 65536 words is one of the commands or
illegal. -/
def decodeWord (cw : Word) : Except Illegal Instr :=
  match selectOpcode (opcField cw) with
  | none => .error (.unassignedOpcode (opcField cw))
  | some .p => .ok (.pack (aField cw) (bField cw))
  | some (.z i) =>
    if aField cw = 0 ∧ bField cw = 0 then .ok i
    else .error (.nonzeroImmediates (opcField cw) (aField cw) (bField cw))

/-- The word of a command (R104 column `match`; R134 for `PACK`). -/
def encode : Instr → Word
  | .nop => commandWord 0x00 0 0
  | .clr => commandWord 0x01 0 0
  | .enc0 => commandWord 0x10 0 0
  | .enc1 => commandWord 0x11 0 0
  | .enc2 => commandWord 0x12 0 0
  | .enc3 => commandWord 0x13 0 0
  | .enc4 => commandWord 0x14 0 0
  | .dec0 => commandWord 0x20 0 0
  | .dec1 => commandWord 0x21 0 0
  | .dec2 => commandWord 0x22 0 0
  | .dec3 => commandWord 0x23 0 0
  | .dec4 => commandWord 0x24 0 0
  | .getfmt => commandWord 0x30 0 0
  | .decode => commandWord 0x31 0 0
  | .pack a b => commandWord 0x40 a b
  | .unpack => commandWord 0x41 0 0
  | .drv64 => commandWord 0x42 0 0
  | .drv128 => commandWord 0x43 0 0
  | .xor => commandWord 0x44 0 0

/-- The instruction the decoder reads from the word `w` of `nbits` bits, every bit above `nbits`
zero. A command word moves whole in one port transfer (20_memory R78): one word, no byte order. -/
def decodeTableWord (nbits w : Nat) : Option Instr :=
  match decodeWord (BitVec.ofNat 16 (w % 2 ^ nbits)) with
  | .ok i => some i
  | .error _ => none

/-- The row of R104 a command belongs to, as its `(match, mask)` pair: a word selects the command
exactly when `CW & mask = match`. -/
def tableRow : Instr → Word × Word
  | .nop => (0x0000, 0xFFFF)
  | .clr => (0x0100, 0xFFFF)
  | .enc0 => (0x1000, 0xFFFF)
  | .enc1 => (0x1100, 0xFFFF)
  | .enc2 => (0x1200, 0xFFFF)
  | .enc3 => (0x1300, 0xFFFF)
  | .enc4 => (0x1400, 0xFFFF)
  | .dec0 => (0x2000, 0xFFFF)
  | .dec1 => (0x2100, 0xFFFF)
  | .dec2 => (0x2200, 0xFFFF)
  | .dec3 => (0x2300, 0xFFFF)
  | .dec4 => (0x2400, 0xFFFF)
  | .getfmt => (0x3000, 0xFFFF)
  | .decode => (0x3100, 0xFFFF)
  | .pack _ _ => (0x4000, 0xFF00)
  | .unpack => (0x4100, 0xFFFF)
  | .drv64 => (0x4200, 0xFFFF)
  | .drv128 => (0x4300, 0xFFFF)
  | .xor => (0x4400, 0xFFFF)

end Sys2Proof
end

