-- ==== Sys2Proof/Machine/Port.lean ====
section
/-! DEFINITION. The host port: the register index map (spec 10_state R49), `HostWrite` and `HostRead`
(20_memory R74 to R77), the execution of a command word (30_encoding R101) and one step of the port's
script. `exec` and `step` themselves stand in Dispatch.lean and Step.lean: what is here takes the
meaning of an instruction as an argument. -/

namespace Sys2Proof.Machine

/-- The registers of the port, by name (10_state R49). Scratch has no index. -/
inductive Reg where
  | cmd
  | status
  | fmto
  | pinleno
  | blkleno
  | fldleno
  | pinleni
  | panlen
  | noncelen
  | blkleni
  | pini (k : Fin 12)
  | pan (k : Fin 10)
  | nonce (k : Fin 8)
  | blki (k : Fin 16)
  | fldi (k : Fin 16)
  | pino (k : Fin 12)
  | blko (k : Fin 16)
  | fldo (k : Fin 16)
deriving DecidableEq, Repr

/-- The index of a register (10_state R49). -/
def Reg.index : Reg → Index
  | .cmd => 0x00
  | .status => 0x01
  | .fmto => 0x02
  | .pinleno => 0x03
  | .blkleno => 0x04
  | .fldleno => 0x05
  | .pinleni => 0x08
  | .panlen => 0x09
  | .noncelen => 0x0A
  | .blkleni => 0x0B
  | .pini k => BitVec.ofNat 8 (0x10 + k)
  | .pan k => BitVec.ofNat 8 (0x20 + k)
  | .nonce k => BitVec.ofNat 8 (0x30 + k)
  | .blki k => BitVec.ofNat 8 (0x40 + k)
  | .fldi k => BitVec.ofNat 8 (0x50 + k)
  | .pino k => BitVec.ofNat 8 (0x60 + k)
  | .blko k => BitVec.ofNat 8 (0x70 + k)
  | .fldo k => BitVec.ofNat 8 (0x80 + k)

/-- Host access to a register (10_state R49, column "host access"). -/
inductive Access where
  /-- WO: host write only, reads return zero. -/
  | writeOnly
  /-- RO: host read only, writes ignored. -/
  | readOnly
  /-- RW: host read and write. -/
  | readWrite
deriving DecidableEq, Repr

/-- The access column of 10_state R49. -/
def Reg.access : Reg → Access
  | .cmd => .writeOnly
  | .status => .readOnly
  | .fmto => .readOnly
  | .pinleno => .readOnly
  | .blkleno => .readOnly
  | .fldleno => .readOnly
  | .pinleni => .readWrite
  | .panlen => .readWrite
  | .noncelen => .readWrite
  | .blkleni => .readWrite
  | .pini _ => .readWrite
  | .pan _ => .readWrite
  | .nonce _ => .readWrite
  | .blki _ => .readWrite
  | .fldi _ => .readWrite
  | .pino _ => .readOnly
  | .blko _ => .readOnly
  | .fldo _ => .readOnly

/-- The width column of 10_state R49, in bits. -/
def Reg.width : Reg → Nat
  | .cmd => 16
  | .fmto => 4
  | .pini _ => 4
  | .pino _ => 4
  | _ => 8

/-- Element `i - base` of an array of `n` registers at `base`, where `i` lies in it. -/
def element (base n i : Nat) : Option (Fin n) :=
  if h : base ≤ i ∧ i - base < n then some ⟨i - base, h.2⟩ else none

/-- The arrays of the index map, by the index's high digit (10_state R49). -/
def arrayReg (i : Nat) : Option Reg :=
  match i / 16 with
  | 1 => (element 0x10 12 i).map .pini
  | 2 => (element 0x20 10 i).map .pan
  | 3 => (element 0x30 8 i).map .nonce
  | 4 => (element 0x40 16 i).map .blki
  | 5 => (element 0x50 16 i).map .fldi
  | 6 => (element 0x60 12 i).map .pino
  | 7 => (element 0x70 16 i).map .blko
  | 8 => (element 0x80 16 i).map .fldo
  | _ => none

/-- The register at an index; `none` at an unmapped index (10_state R49, 20_memory R77). -/
def regAt (idx : Index) : Option Reg :=
  match idx.toNat with
  | 0x00 => some .cmd
  | 0x01 => some .status
  | 0x02 => some .fmto
  | 0x03 => some .pinleno
  | 0x04 => some .blkleno
  | 0x05 => some .fldleno
  | 0x08 => some .pinleni
  | 0x09 => some .panlen
  | 0x0A => some .noncelen
  | 0x0B => some .blkleni
  | i => arrayReg i

/-- The value of a register on the port: `zext_16` of it; `CMD` reads 0x0000 (20_memory R75). -/
def State.readReg (s : State) : Reg → Word
  | .cmd => 0
  | .status => s.out.status.setWidth 16
  | .fmto => s.out.fmto.setWidth 16
  | .pinleno => s.out.pinleno.setWidth 16
  | .blkleno => s.out.blkleno.setWidth 16
  | .fldleno => s.out.fldleno.setWidth 16
  | .pinleni => s.inp.pinleni.setWidth 16
  | .panlen => s.inp.panlen.setWidth 16
  | .noncelen => s.inp.noncelen.setWidth 16
  | .blkleni => s.inp.blkleni.setWidth 16
  | .pini k => s.inp.pini[k].setWidth 16
  | .pan k => s.inp.pan[k].setWidth 16
  | .nonce k => s.inp.nonce[k].setWidth 16
  | .blki k => s.inp.blki[k].setWidth 16
  | .fldi k => s.inp.fldi[k].setWidth 16
  | .pino k => s.out.pino[k].setWidth 16
  | .blko k => s.out.blko[k].setWidth 16
  | .fldo k => s.out.fldo[k].setWidth 16

/-- A write of `v` to an input register keeps `v`'s low bits (20_memory R74); a write to an output
register is ignored (R76). `CMD` is not written here: a write to it runs a command. -/
def InputRegs.writeReg (inp : InputRegs) (r : Reg) (v : Word) : InputRegs :=
  match r with
  | .pinleni => { inp with pinleni := v.setWidth 8 }
  | .panlen => { inp with panlen := v.setWidth 8 }
  | .noncelen => { inp with noncelen := v.setWidth 8 }
  | .blkleni => { inp with blkleni := v.setWidth 8 }
  | .pini k => { inp with pini := inp.pini.set k (v.setWidth 4) }
  | .pan k => { inp with pan := inp.pan.set k (v.setWidth 8) }
  | .nonce k => { inp with nonce := inp.nonce.set k (v.setWidth 8) }
  | .blki k => { inp with blki := inp.blki.set k (v.setWidth 8) }
  | .fldi k => { inp with fldi := inp.fldi.set k (v.setWidth 8) }
  | .cmd => inp
  | .status => inp
  | .fmto => inp
  | .pinleno => inp
  | .blkleno => inp
  | .fldleno => inp
  | .pino _ => inp
  | .blko _ => inp
  | .fldo _ => inp

/-- `HostRead(idx)` (20_memory R75): the value; an unmapped index reads 0x0000 (R77). A read changes
no state of PBCORE. -/
def State.hostRead (s : State) (idx : Index) : Word :=
  match regAt idx with
  | none => 0
  | some r => s.readReg r

/-- `HostWrite(idx, v)` to an index other than `CMD` (20_memory R74, R76, R77). -/
def State.writeData (s : State) (idx : Index) (v : Word) : State :=
  match regAt idx with
  | none => s
  | some r => { s with inp := s.inp.writeReg r v }

/-- Executing a command word (30_encoding R101): the command it decodes to, or R106. `ex` is the
meaning of an instruction. -/
def runWord (ex : Instr → State → Result) (cw : Word) (s : State) : Result :=
  match decodeWord cw with
  | .ok i => ex i s
  | .error _ => illegalWord s

/-- `HostWrite(idx, v)` (20_memory R74): index 0x00 executes the command `v`. -/
def hostWrite (ex : Instr → State → Result) (idx : Index) (v : Word) (s : State) : Result :=
  if idx = Reg.cmd.index then runWord ex v s else .next (s.writeData idx v)

/-- The host takes the value of a read (20_memory R75). -/
def State.takeRead (s : State) (v : Word) : State := { s with port := { s.port with rdata := v } }

/-- The verdict of an `EXPECT` (30_encoding R110). -/
def State.noteExpect (s : State) (good : Bool) : State :=
  { s with port := { s.port with expectOk := s.port.expectOk && good } }

/-- One operation of the script, on the state whose script no longer holds it. -/
def portOp (ex : Instr → State → Result) (op : PortOp) (s : State) : Result :=
  match op with
  | .write idx v => hostWrite ex idx v s
  | .copy idx => hostWrite ex idx s.port.rdata s
  | .read idx => .next (s.takeRead (s.hostRead idx))
  | .expect idx v => .next ((s.takeRead (s.hostRead idx)).noteExpect (s.hostRead idx == v))
  | .reset => .next s.zeroRegisters
  | .resetDuring _ requests => .next (s.zeroRegisters.withRng (s.rng.skip requests))
  | .supply bytes => .next (s.withRng (s.rng.supply bytes))

/-- The state with the script `ops`. -/
def State.withScript (s : State) (ops : List PortOp) : State :=
  { s with port := { s.port with script := ops } }

/-- One step: the first pending port operation (20_memory R81). With none pending PBCORE is idle and
stays as it is (00_scope R13, 70_reset_and_hazards R341; log entry 9). -/
def portStep (ex : Instr → State → Result) (s : State) : Result :=
  match s.port.script with
  | [] => .next s
  | op :: rest => portOp ex op (s.withScript rest)

/-- The state whose next port operation is the `CMD` write of the word `w` of `nbits` bits. -/
def State.placeCommand (s : State) (nbits w : Nat) : State :=
  s.withScript (.write Reg.cmd.index (BitVec.ofNat 16 (w % 2 ^ nbits)) :: s.port.script)

end Sys2Proof.Machine
end

