-- ==== Sys2Proof/Machine/Step.lean ====
section
/-! DEFINITION. One step of the machine, and placing a command word where the next step takes it. -/

namespace Sys2Proof.Machine

/-- One step: the next pending port operation (spec 20_memory R74, R75, R81); a `CMD` write executes
its command to completion (R80). -/
def step (s : State) : Host.Outcome State Fault Refusal := portStep exec s

/-- `s` with the `CMD` write of `w` as its next port operation: PBCORE fetches no instruction, the
host writes each command word (10_state R50; log entry 1). -/
def State.withFetchWord (s : State) (nbits w : Nat) : State := s.placeCommand nbits w

end Sys2Proof.Machine
end

