-- ==== Sys2Proof/Machine/Script.lean ====
section
/-! DEFINITION. The host-script notation (spec 30_encoding R109, R110): statements, pseudo-statements
and their expansion to port operations. It carries no semantics beyond `HostWrite` and `HostRead`
(decision D32). -/

namespace Sys2Proof.Machine

/-- A statement or pseudo-statement of a host script. -/
inductive Stmt where
  /-- `WR reg, value` (R109). -/
  | wr (r : Reg) (v : Word)
  /-- `RD reg` (R109). -/
  | rd (r : Reg)
  /-- `CMD mnemonic` and `CMD PACK a, b` (R109). -/
  | cmd (i : Instr)
  /-- `CMD #word` (R109). -/
  | cmdWord (w : Word)
  /-- `LDPIN` (R110), at most 12 digits. -/
  | ldpin (d : List Nibble)
  /-- `LDPAN` (R110), at most 10 bytes. -/
  | ldpan (b : List Byte)
  /-- `LDNONCE` (R110), at most 8 bytes. -/
  | ldnonce (b : List Byte)
  /-- `LDBLK` (R110), at most 16 bytes. -/
  | ldblk (b : List Byte)
  /-- `LDFLD` (R110), at most 16 bytes. -/
  | ldfld (b : List Byte)
  /-- `MVBLK` (R110). -/
  | mvblk
  /-- `MVFLD` (R110). -/
  | mvfld
  /-- `EXPECT reg = value` (R110). -/
  | expect (r : Reg) (v : Word)
  /-- `RNG b0 b1 ...` (R110): no host operation; the source's answers to the commands that follow. -/
  | rng (b : List Byte)
deriving DecidableEq, Repr

/-- `WR` of the elements from `base` on, in order. -/
def writesFrom (base : Nat) (vs : List Word) : List PortOp :=
  vs.zipIdx.map fun (v, k) => .write (BitVec.ofNat 8 (base + k)) v

/-- For `k` from 0 to 15: `RD` of element `k` at `src`, then `WR` of the value read to element `k` at
`dst` (`MVBLK`, `MVFLD`). -/
def copies16 (src dst : Nat) : List PortOp :=
  (List.range 16).flatMap fun k =>
    [.read (BitVec.ofNat 8 (src + k)), .copy (BitVec.ofNat 8 (dst + k))]

/-- A length register's `WR`. -/
def writeLength (r : Reg) (n : Nat) : PortOp := .write r.index (BitVec.ofNat 16 n)

/-- A byte as a port value. -/
def portBytes (b : List Byte) : List Word := b.map (·.setWidth 16)

/-- The expansion of a statement (R109, R110). -/
def Stmt.expand : Stmt → List PortOp
  | .wr r v => [.write r.index v]
  | .rd r => [.read r.index]
  | .cmd i => [.write Reg.cmd.index (encode i)]
  | .cmdWord w => [.write Reg.cmd.index w]
  | .ldpin d => writeLength .pinleni d.length :: writesFrom 0x10 (d.map (·.setWidth 16))
  | .ldpan b => writeLength .panlen b.length :: writesFrom 0x20 (portBytes b)
  | .ldnonce b => writeLength .noncelen b.length :: writesFrom 0x30 (portBytes b)
  | .ldblk b => writeLength .blkleni b.length :: writesFrom 0x40 (portBytes b)
  | .ldfld b => writesFrom 0x50 (portBytes b)
  | .mvblk => copies16 0x70 0x40 ++ [.read Reg.blkleno.index, .copy Reg.blkleni.index]
  | .mvfld => copies16 0x80 0x50
  | .expect r v => [.expect r.index v]
  | .rng b => [.supply b]

/-- The bound R110 puts on a pseudo-statement's operand list. -/
def Stmt.inBounds : Stmt → Bool
  | .ldpin d => d.length ≤ 12
  | .ldpan b => b.length ≤ 10
  | .ldnonce b => b.length ≤ 8
  | .ldblk b => b.length ≤ 16
  | .ldfld b => b.length ≤ 16
  | _ => true

/-- `s` with the statements of a script appended to what is pending. The random-byte source does not
change here: an `RNG` takes effect in its turn, for the commands that follow it (R110). -/
def State.load (s : State) (l : List Stmt) : State :=
  s.withScript (s.port.script ++ l.flatMap Stmt.expand)

end Sys2Proof.Machine
end

