-- ==== Sys2Proof/Safety.lean ====
section
/-! DEFINITION. What counts as a safe state and a safe step, in the terms the statements use. -/

namespace Sys2Proof.Machine

/-- Scratch is zero (spec 10_state R55). -/
abbrev State.ScratchClear (s : State) : Prop := s.scratch = .zero

/-- A failure delivers nothing: with a code other than `ST_OK` every output register but `STATUS` is
zero (60_exceptions R306). -/
abbrev OutputRegs.FailureClean (o : OutputRegs) : Prop :=
  o.status ≠ 0 → o = { OutputRegs.zero with status := o.status }

/-- The output registers hold what their rules allow: `STATUS` one of 0x00 to 0x07 (10_state R32),
`FMTO` a tag (R33), output lengths as R44, R46, R48 say, and zero in every element at or beyond its
length (R43, R45, R47). -/
abbrev OutputRegs.Consistent (o : OutputRegs) : Prop :=
  o.status.toNat ≤ 7 ∧ o.FailureClean ∧ o.fmto.toNat ≤ 4 ∧
  o.pinleno.toNat ≤ 12 ∧ (∀ k : Fin 12, o.pinleno.toNat ≤ k.val → o.pino[k] = 0) ∧
  (o.blkleno = 0 ∨ o.blkleno = 8 ∨ o.blkleno = 16) ∧
  (∀ k : Fin 16, o.blkleno.toNat ≤ k.val → o.blko[k] = 0) ∧
  (o.fldleno = 0 ∨ o.fldleno = 8 ∨ o.fldleno = 16) ∧
  (∀ k : Fin 16, o.fldleno.toNat ≤ k.val → o.fldo[k] = 0)

/-- The machine's invariant at every command boundary (10_state R55 and section 4, 60_exceptions
R306, R307). -/
abbrev State.Inv (s : State) : Prop := s.ScratchClear ∧ s.out.Consistent

/-- `n` steps, one after the other, up to the first that has no next state. -/
def runSteps : Nat → State → Result
  | 0, s => .next s
  | n + 1, s =>
    match step s with
    | .next t => runSteps n t
    | .fault f => .fault f
    | .refused r => .refused r

/-- Every supplied answer of the random-byte source is a byte: the source is never silent (what PB
assumes, 00_scope R15). -/
def RngSource.responsive (g : RngSource) : Bool := g.answers.all Option.isSome

/-- The commands that may draw random bytes (42_padding R171). -/
def mayDraw : Instr → Bool
  | .enc1 => true
  | .enc3 => true
  | .enc4 => true
  | .nop => false
  | .clr => false
  | .enc0 => false
  | .enc2 => false
  | .dec0 => false
  | .dec1 => false
  | .dec2 => false
  | .dec3 => false
  | .dec4 => false
  | .getfmt => false
  | .decode => false
  | .pack _ _ => false
  | .unpack => false
  | .drv64 => false
  | .drv128 => false
  | .xor => false

/-! ### The vocabulary of the statements

Written from the rules' own words and not from the definitions of the commands. -/

/-- What a failing command leaves (60_exceptions R306): the code in `STATUS`, every other output
register and scratch zero, everything else as before. -/
def State.failedWith (s : State) (code : Byte) : State :=
  { s with out := { OutputRegs.zero with status := code }, scratch := .zero }

/-- What a successful command leaves that produces the outputs `o` (00_scope R10 `done`): `ST_OK`,
those outputs, zero scratch, everything else as before. -/
def State.doneWith (s : State) (o : OutputRegs) : State :=
  { s with out := { o with status := 0x00 }, scratch := .zero }

/-- The outputs of a delivered PIN of `L` digits `d 0`, ..., with 0x0 in the elements from `L` on
(10_state R43, R44, 45_decode R234). -/
def deliveredPin (d : Nat → Nibble) (L : Nat) (fmt : Nibble) : OutputRegs :=
  { OutputRegs.zero with
    pino := Vector.ofFn fun k : Fin 12 => if k.val < L then d k.val else 0
    pinleno := BitVec.ofNat 8 L
    fmto := fmt }

/-- The nibble map of the PIN field before any masking (44_encode R209): control nibble, length
nibble, digits, and from nibble `2 + L` on the padding `pad`. -/
def fieldNibble (fmt : Nibble) (d : Vector Nibble 12) (L : Nat) (pad : Nat → Nibble) (k : Nat) :
    Nibble :=
  if k = 0 then fmt
  else if k = 1 then BitVec.ofNat 4 L
  else if k < 2 + L then digitAt d (k - 2)
  else pad k

/-- The non-pad nibbles of the first `n` PAN bytes, rightmost first (41_pan_field R150, R151): the
check digit is number 0. -/
def nonPadDigits (P : Vector Byte 10) (n : Nat) : List Nibble :=
  (((List.range (2 * n)).map (nib P)).filter (· != 0xF)).reverse

/-- The nibble map of the 8-byte PAN field (41_pan_field R151): nibbles 0 to 3 zero, then the window
of at most 12 non-pad nibbles left of the check digit, right-justified. -/
def panNibble (P : Vector Byte 10) (n k : Nat) : Nibble :=
  if 4 ≤ k ∧ k < 16 then (nonPadDigits P n).getD (16 - k) 0 else 0

/-- The nibble of format-1 padding at nibble `k` of the field, from the byte sequence `S` that starts
at byte `1 + (L >> 1)` (42_padding R172). -/
def paddingNibble (S : Nat → Byte) (L k : Nat) : Nibble :=
  if k % 2 = 0 then hiNib (S (k / 2 - (1 + L / 2))) else loNib (S (k / 2 - (1 + L / 2)))

/-- The two inputs hold the same PIN operand: the length and the digits below it (10_state R34). -/
def samePin (x y : InputRegs) : Prop :=
  x.pinleni = y.pinleni ∧ ∀ k, k < x.pinleni.toNat → digitAt x.pini k = digitAt y.pini k

/-- The two inputs hold the same PAN operand: the length and the bytes below it (10_state R36). -/
def samePan (x y : InputRegs) : Prop :=
  x.panlen = y.panlen ∧ ∀ k, k < x.panlen.toNat → byteAt x.pan k = byteAt y.pan k

/-- The two inputs hold the same nonce operand (10_state R38, R39). -/
def sameNonce (x y : InputRegs) : Prop :=
  x.noncelen = y.noncelen ∧ ∀ k, k < x.noncelen.toNat → byteAt x.nonce k = byteAt y.nonce k

/-- The two inputs hold the same block length and the same block bytes `lo` to `hi - 1`. -/
def sameBlock (lo hi : Nat) (x y : InputRegs) : Prop :=
  x.blkleni = y.blkleni ∧ ∀ k, lo ≤ k → k < hi → byteAt x.blki k = byteAt y.blki k

/-- The two inputs agree on every input register that 10_state R56 lists for the command (array
elements at or beyond the operand's length are not read, R34, R36, R38, R40). -/
def sameOperands (i : Instr) (x y : InputRegs) : Prop :=
  match i with
  | .nop => True
  | .clr => True
  | .enc0 => samePin x y ∧ samePan x y
  | .enc1 => samePin x y ∧ sameNonce x y
  | .enc2 => samePin x y
  | .enc3 => samePin x y ∧ samePan x y
  | .enc4 => samePin x y
  | .dec0 => sameBlock 0 8 x y ∧ samePan x y
  | .dec1 => sameBlock 0 8 x y
  | .dec2 => sameBlock 0 8 x y
  | .dec3 => sameBlock 0 8 x y ∧ samePan x y
  | .dec4 => sameBlock 0 8 x y
  | .getfmt => sameBlock 0 1 x y
  | .decode => sameBlock 0 8 x y ∧ (nib x.blki 0 = 0 ∨ nib x.blki 0 = 3 → samePan x y)
  | .pack _ _ => samePin x y
  | .unpack => x.pinleni = y.pinleni ∧ ∀ k, 1 ≤ k → k < 8 → byteAt x.blki k = byteAt y.blki k
  | .drv64 => samePan x y
  | .drv128 => samePan x y
  | .xor => sameBlock 0 x.blkleni.toNat x y ∧
      ∀ k, k < x.blkleni.toNat → byteAt x.fldi k = byteAt y.fldi k

end Sys2Proof.Machine
end

