-- ==== Sys2Proof/WellFormed.lean ====
section
/-! DEFINITION. What a well-formed command and a well-formed host script are. -/

namespace Sys2Proof

/-- Spec 30_encoding R109: `PACK a, b` with `0 <= a, b <= 15`; every other command has no operand.
The immediates are typed as nibbles, so every term of `Instr` meets this. -/
def Instr.wellFormed : Instr → Bool
  | .pack a b => a.toNat ≤ 15 && b.toNat ≤ 15
  | _ => true

/-- A host script whose pseudo-statements keep the bounds of 30_encoding R110. -/
def scriptWellFormed (l : List Machine.Stmt) : Bool := l.all Machine.Stmt.inBounds

end Sys2Proof
end

