-- ==== Sys2Proof/Certificates/Slice0/Obligations.lean ====
section
/-! DEFINITION. The statements for the provers.

Three things in them are the model's own and no rule's: the host's pending operations stand in the state
as `port.script` (log entry 1), what the host has read as `port.rdata` (log entry 5), and the random-byte
source as `rng`, whose supplied answers and request count are `rng.answers` and `rng.drawn` (log entry
2). -/

open Sys2Proof Sys2Proof.Machine

/-! ### Encoding -/

/-- Every command's word decodes to that command, at every value of its operands (30_encoding R100,
R102, R103, R104). -/
def Obligations.EncodedCommandDecodesBack : Prop :=
  ∀ i : Instr, i.wellFormed = true → decodeWord (encode i) = .ok i

/-- Each command has exactly one word (30_encoding R100, R102, R104): a word that decodes to a command is
that command's word. -/
def Obligations.DecodedWordIsThatCommandsWord : Prop :=
  ∀ (cw : Word) (i : Instr), decodeWord cw = .ok i → encode i = cw ∧ i.wellFormed = true

/-- 30_encoding R104: a word selects a command exactly when its `match` and `mask` say so. -/
def Obligations.WordSelectsByMatchAndMask : Prop :=
  ∀ cw : Word,
    (decodeWord cw = .ok .nop ↔ cw &&& 0xFFFF = 0x0000) ∧
    (decodeWord cw = .ok .clr ↔ cw &&& 0xFFFF = 0x0100) ∧
    (decodeWord cw = .ok .enc0 ↔ cw &&& 0xFFFF = 0x1000) ∧
    (decodeWord cw = .ok .enc1 ↔ cw &&& 0xFFFF = 0x1100) ∧
    (decodeWord cw = .ok .enc2 ↔ cw &&& 0xFFFF = 0x1200) ∧
    (decodeWord cw = .ok .enc3 ↔ cw &&& 0xFFFF = 0x1300) ∧
    (decodeWord cw = .ok .enc4 ↔ cw &&& 0xFFFF = 0x1400) ∧
    (decodeWord cw = .ok .dec0 ↔ cw &&& 0xFFFF = 0x2000) ∧
    (decodeWord cw = .ok .dec1 ↔ cw &&& 0xFFFF = 0x2100) ∧
    (decodeWord cw = .ok .dec2 ↔ cw &&& 0xFFFF = 0x2200) ∧
    (decodeWord cw = .ok .dec3 ↔ cw &&& 0xFFFF = 0x2300) ∧
    (decodeWord cw = .ok .dec4 ↔ cw &&& 0xFFFF = 0x2400) ∧
    (decodeWord cw = .ok .getfmt ↔ cw &&& 0xFFFF = 0x3000) ∧
    (decodeWord cw = .ok .decode ↔ cw &&& 0xFFFF = 0x3100) ∧
    ((∃ a b, decodeWord cw = .ok (.pack a b)) ↔ cw &&& 0xFF00 = 0x4000) ∧
    (decodeWord cw = .ok .unpack ↔ cw &&& 0xFFFF = 0x4100) ∧
    (decodeWord cw = .ok .drv64 ↔ cw &&& 0xFFFF = 0x4200) ∧
    (decodeWord cw = .ok .drv128 ↔ cw &&& 0xFFFF = 0x4300) ∧
    (decodeWord cw = .ok .xor ↔ cw &&& 0xFFFF = 0x4400)

/-- A few words written out from 30_encoding R100 and R104 decode to the command they stand for. -/
def Obligations.WrittenOutWordsDecode : Prop :=
  decodeWord 0x0000 = .ok .nop ∧ decodeWord 0x1100 = .ok .enc1 ∧ decodeWord 0x2400 = .ok .dec4 ∧
  decodeWord 0x3100 = .ok .decode ∧ decodeWord 0x402F = .ok (.pack 2 15) ∧
  decodeWord 0x4400 = .ok .xor

/-- 30_encoding R106: a word that no row of R104 selects (the opcodes not listed, and a format-Z opcode
with `CW[7:0]` not zero) is executed as a failing command with `ST_ILLCMD`: outputs and scratch zero, no
input register changed, nothing drawn. The pending write in `port.script` is the model's (log entry
1). -/
def Obligations.UnselectedWordGivesIllcmd : Prop :=
  ∀ cw : Word,
    ((∀ i : Instr, cw &&& (tableRow i).2 ≠ (tableRow i).1) ↔
      (0x02 ≤ (opcField cw).toNat ∧ (opcField cw).toNat ≤ 0x0F) ∨
      (0x15 ≤ (opcField cw).toNat ∧ (opcField cw).toNat ≤ 0x1F) ∨
      (0x25 ≤ (opcField cw).toNat ∧ (opcField cw).toNat ≤ 0x2F) ∨
      (0x32 ≤ (opcField cw).toNat ∧ (opcField cw).toNat ≤ 0x3F) ∨
      0x45 ≤ (opcField cw).toNat ∨
      ((opcField cw).toNat ≠ 0x40 ∧ cw.extractLsb' 0 8 ≠ (0x00 : Byte))) ∧
    ∀ (s : State) (rest : List PortOp),
      s.port.script = .write 0x00 cw :: rest →
      (∀ i : Instr, cw &&& (tableRow i).2 ≠ (tableRow i).1) →
      step s = .next ((s.withScript rest).failedWith 0x07)

/-! ### The port and the step -/

/-- A step whose next port operation is the `CMD` write of a word that decodes to a command runs that
command, on the state whose script no longer holds the write (20_memory R74, R80, 30_encoding
R101; the script is the model's, log entry 1). -/
def Obligations.StepRunsTheDecodedCommand : Prop :=
  ∀ (s : State) (cw : Word) (rest : List PortOp) (i : Instr),
    s.port.script = .write 0x00 cw :: rest → decodeWord cw = .ok i → i.wellFormed = true →
    step s = exec i (s.withScript rest)

/-- The model's choice (log entry 9, from 70_reset_and_hazards R341 "stays idle"): with no port
operation pending a step changes nothing. -/
def Obligations.StepIdlesWithNothingPending : Prop :=
  ∀ s : State, s.port.script = [] → step s = .next s

/-- 20_memory R74 and R76: a host write to index 0x00 executes the command; to an input register it
sets that register to the value's low bits and changes nothing else; to an output register or an
unmapped index it changes nothing. The pending write in `port.script` is the model's (log entry 1). -/
def Obligations.HostWriteEffect : Prop :=
  ∀ (s : State) (idx : Index) (v : Word) (rest : List PortOp),
    s.port.script = .write idx v :: rest →
    (idx = 0x00 → (∀ i, decodeWord v = .ok i → step s = exec i (s.withScript rest)) ∧
      (∀ e, decodeWord v = .error e → step s = .next ((s.withScript rest).failedWith 0x07))) ∧
    (∀ r : Reg, r.access = .readWrite → idx = r.index →
      ∃ t, step s = .next t ∧ (t.readReg r).toNat = v.toNat % 2 ^ r.width ∧
        (∀ r' : Reg, r' ≠ r → t.readReg r' = s.readReg r') ∧
        t.out = s.out ∧ t.scratch = s.scratch ∧ t.rng = s.rng ∧
        t.port = (s.withScript rest).port) ∧
    (∀ r : Reg, r.access = .readOnly → idx = r.index → step s = .next (s.withScript rest)) ∧
    ((∀ r : Reg, idx ≠ r.index) → step s = .next (s.withScript rest))

/-- 20_memory R75: a host read returns the register's value zero-extended to 16 bits, 0x0000 for `CMD`
and for an unmapped index, and changes no register. The value goes to the host's side of the port
(`rdata`, the model's own field, log entry 5), and the read leaves the script (log entry 1). -/
def Obligations.HostReadReturnsTheRegister : Prop :=
  ∀ (s : State) (idx : Index) (rest : List PortOp),
    s.port.script = .read idx :: rest →
    ∃ v : Word, step s = .next { s with port := { s.port with script := rest, rdata := v } } ∧
      (idx = 0x00 → v = 0) ∧
      (idx = 0x01 → v = s.out.status.setWidth 16) ∧
      (idx = 0x02 → v = s.out.fmto.setWidth 16) ∧
      (idx = 0x03 → v = s.out.pinleno.setWidth 16) ∧
      (idx = 0x04 → v = s.out.blkleno.setWidth 16) ∧
      (idx = 0x05 → v = s.out.fldleno.setWidth 16) ∧
      (idx = 0x08 → v = s.inp.pinleni.setWidth 16) ∧
      (idx = 0x09 → v = s.inp.panlen.setWidth 16) ∧
      (idx = 0x0A → v = s.inp.noncelen.setWidth 16) ∧
      (idx = 0x0B → v = s.inp.blkleni.setWidth 16) ∧
      (∀ k : Fin 12, idx.toNat = 0x10 + k → v = s.inp.pini[k].setWidth 16) ∧
      (∀ k : Fin 10, idx.toNat = 0x20 + k → v = s.inp.pan[k].setWidth 16) ∧
      (∀ k : Fin 8, idx.toNat = 0x30 + k → v = s.inp.nonce[k].setWidth 16) ∧
      (∀ k : Fin 16, idx.toNat = 0x40 + k → v = s.inp.blki[k].setWidth 16) ∧
      (∀ k : Fin 16, idx.toNat = 0x50 + k → v = s.inp.fldi[k].setWidth 16) ∧
      (∀ k : Fin 12, idx.toNat = 0x60 + k → v = s.out.pino[k].setWidth 16) ∧
      (∀ k : Fin 16, idx.toNat = 0x70 + k → v = s.out.blko[k].setWidth 16) ∧
      (∀ k : Fin 16, idx.toNat = 0x80 + k → v = s.out.fldo[k].setWidth 16) ∧
      ((∀ r : Reg, idx ≠ r.index) → v = 0)

/-- 20_memory R77: exactly the listed indices are unmapped; they read as 0x0000 and ignore writes.
The script and the value read are the model's fields (log entries 1 and 5). -/
def Obligations.UnmappedIndicesAreInert : Prop :=
  ∀ (s : State) (idx : Index) (v : Word) (rest : List PortOp),
    ((∀ r : Reg, idx ≠ r.index) ↔
      (0x06 ≤ idx.toNat ∧ idx.toNat ≤ 0x07) ∨ (0x0C ≤ idx.toNat ∧ idx.toNat ≤ 0x0F) ∨
      (0x1C ≤ idx.toNat ∧ idx.toNat ≤ 0x1F) ∨ (0x2A ≤ idx.toNat ∧ idx.toNat ≤ 0x2F) ∨
      (0x38 ≤ idx.toNat ∧ idx.toNat ≤ 0x3F) ∨ (0x6C ≤ idx.toNat ∧ idx.toNat ≤ 0x6F) ∨
      0x90 ≤ idx.toNat) ∧
    ((∀ r : Reg, idx ≠ r.index) →
      step (s.withScript (.write idx v :: rest)) = .next (s.withScript rest) ∧
      step (s.withScript (.read idx :: rest)) = .next ((s.withScript rest).takeRead 0))

/-- The host script `MVBLK` (30_encoding R110), run to its end, moves the produced block and its length
to the block operand and changes no other register (20_memory R81: operations take effect one at a time
in order). That a script's operation can write the value read before it is the model's (log entry
13). -/
def Obligations.MvblkMovesTheBlock : Prop :=
  ∀ (s : State) (rest : List PortOp), s.port.script = Stmt.mvblk.expand ++ rest →
    runSteps 34 s = .next
      { s with
        inp := { s.inp with blki := s.out.blko, blkleni := s.out.blkleno }
        port := { s.port with script := rest, rdata := s.out.blkleno.setWidth 16 } }

/-- `EXPECT` of the host-script notation (30_encoding R110) reads as `RD` does, and the test fails unless
the value read is the value given; where the verdict stands is the model's choice (log entry 5). -/
def Obligations.ExpectComparesTheValueRead : Prop :=
  ∀ (s : State) (idx : Index) (v : Word) (rest : List PortOp),
    s.port.script = .expect idx v :: rest →
    ∃ w : Word, step (s.withScript (.read idx :: rest)) = .next ((s.withScript rest).takeRead w) ∧
      step s = .next { s with port := {
        script := rest, rdata := w, expectOk := s.port.expectOk && decide (w = v) } }

/-! ### Reset, `CLR`, `NOP` -/

/-- 70_reset_and_hazards R340: after reset every register holds zero, scratch included, and this is the
state `CLR` produces (the model's fields of the other agents stay, log entry 4). -/
def Obligations.ResetZeroesEveryRegister : Prop :=
  (∀ r : Reg, State.reset.readReg r = 0) ∧
  (∀ k : Fin 16, State.reset.scratch.pf[k] = 0 ∧ State.reset.scratch.nf[k] = 0) ∧
  (∀ s : State, exec .clr s = .next { s with
    inp := State.reset.inp, out := State.reset.out, scratch := State.reset.scratch })

/-- The model's choice of what a reset leaves of the two other agents (log entry 4), with the zero
registers of 70_reset_and_hazards R340 and R342: a reset, between commands or during one, zeroes every
register, and the command it abandons delivers nothing. -/
def Obligations.ResetEventZeroesRegisters : Prop :=
  ∀ (s : State) (rest : List PortOp) (cw : Word) (n : Nat),
    step (s.withScript (.reset :: rest)) = .next { s.withScript rest with
      inp := State.reset.inp, out := State.reset.out, scratch := State.reset.scratch } ∧
    step (s.withScript (.resetDuring cw n :: rest)) = .next { s.withScript rest with
      inp := State.reset.inp, out := State.reset.out, scratch := State.reset.scratch
      rng := { answers := s.rng.answers.drop n, drawn := s.rng.drawn + n } }

/-- 47_control R282: `CLR` zeroes every register, inputs included, and leaves `ST_OK`: the state of the
registers after reset. The model's fields of the other agents stay (log entry 4). -/
def Obligations.ClrZeroesEveryRegister : Prop :=
  decodeWord 0x0100 = .ok .clr ∧ ∀ s : State, ∃ t, exec .clr s = .next t ∧ (∀ r : Reg, t.readReg r = 0) ∧
    (∀ k : Fin 16, t.scratch.pf[k] = 0 ∧ t.scratch.nf[k] = 0) ∧
    t.inp = State.reset.inp ∧ t.out = State.reset.out ∧ t.scratch = State.reset.scratch ∧
    t.port = s.port ∧ t.rng = s.rng

/-- 47_control R280: `NOP` changes no register, `STATUS` included, and draws nothing; the words 0x0001
to 0x00FF are not `NOP` and no other command. -/
def Obligations.NopChangesNothing : Prop :=
  decodeWord 0x0000 = .ok .nop ∧ (∀ s : State, exec .nop s = .next s) ∧
  ∀ w : Word, 0x0001 ≤ w.toNat → w.toNat ≤ 0x00FF → ∀ i, decodeWord w ≠ .ok i

/-! ### What every command does -/

/-- The reset state meets the invariant (10_state R58, R55). -/
def Obligations.ResetMeetsTheInvariant : Prop := State.reset.Inv

/-- Every step keeps the invariant: scratch zero at every command boundary (10_state R55), `STATUS` a
code 0x00 to 0x07 (R32), a failing code with every other output zero (60_exceptions R306), output
lengths and tags in their ranges and zero in every element beyond (10_state R33, R43 to R48). -/
def Obligations.StepKeepsTheInvariant : Prop :=
  ∀ s t : State, s.Inv → step s = .next t → t.Inv

/-- 60_exceptions R307: scratch is zero at the end of every command, successful, failing or illegal
(with the invariant of 10_state R55 as a premise, for `NOP`; the script is the model's, log entry 1). -/
def Obligations.ScratchIsZeroAfterEveryWord : Prop :=
  ∀ (s t : State) (cw : Word) (rest : List PortOp), s.ScratchClear →
    s.port.script = .write 0x00 cw :: rest → step s = .next t →
    (∀ k : Fin 16, t.scratch.pf[k] = 0) ∧ (∀ k : Fin 16, t.scratch.nf[k] = 0)

/-- 60_exceptions R306: a command that ends with a code other than `ST_OK` leaves every other output
register and scratch zero, every input register as it was, and has drawn nothing. `NOP` writes no
code. -/
def Obligations.FailureDeliversNothing : Prop :=
  ∀ (i : Instr) (s t : State), i ≠ .nop → exec i s = .next t → t.out.status ≠ 0x00 →
    t = s.failedWith t.out.status

/-- The frame of every command (10_state R30, R55, R56): no input register changes except by `CLR`; the
host's side of the port never; the random-byte source only for the commands that draw; scratch is zero
afterwards except that `NOP` leaves everything. -/
def Obligations.CommandFrame : Prop :=
  ∀ (i : Instr) (s t : State), exec i s = .next t →
    t.port = s.port ∧
    (i ≠ .clr → t.inp = s.inp) ∧
    (mayDraw i = false → t.rng = s.rng) ∧
    (i ≠ .nop → t.scratch = .zero) ∧
    (i = .nop → t = s)

/-- 60_exceptions R305 with the table of 10_state R56: after any command other than `NOP` an output
register the command does not produce is zero. -/
def Obligations.OutputsNotProducedAreZero : Prop :=
  ∀ (i : Instr) (s t : State), exec i s = .next t →
    ((i = .clr ∨ i = .enc0 ∨ i = .enc1 ∨ i = .enc2 ∨ i = .enc3 ∨ i = .enc4 ∨ i = .xor ∨
        (∃ a b, i = .pack a b)) →
      t.out = { OutputRegs.zero with
        status := t.out.status, blko := t.out.blko, blkleno := t.out.blkleno }) ∧
    ((i = .dec0 ∨ i = .dec1 ∨ i = .dec2 ∨ i = .dec3 ∨ i = .dec4 ∨ i = .decode) →
      t.out = { OutputRegs.zero with
        status := t.out.status, fmto := t.out.fmto, pino := t.out.pino
        pinleno := t.out.pinleno }) ∧
    (i = .unpack → t.out = { OutputRegs.zero with
        status := t.out.status, pino := t.out.pino, pinleno := t.out.pinleno }) ∧
    (i = .getfmt → t.out = { OutputRegs.zero with
        status := t.out.status, fmto := t.out.fmto }) ∧
    ((i = .drv64 ∨ i = .drv128) → t.out = { OutputRegs.zero with
        status := t.out.status, fldo := t.out.fldo, fldleno := t.out.fldleno })

/-- The model's fault (log entry 3, from 00_scope R15 and 93 U3): a command stops only when it draws and
a supplied answer of the random-byte source is silence; it is never refused. -/
def Obligations.CommandStopsOnlyOnASilentSource : Prop :=
  ∀ (i : Instr) (s : State),
    (∀ f, exec i s = .fault f → mayDraw i = true ∧ none ∈ s.rng.answers) ∧
    (∀ r, exec i s ≠ .refused r)

/-- 00_scope R15: every command completes while the random-byte source answers; so does every operation
of the script, and so for ever. -/
def Obligations.StepCompletesWhileTheSourceAnswers : Prop :=
  ∀ s : State, s.rng.responsive = true →
    ∃ t, step s = .next t ∧ t.rng.responsive = true

/-- 10_state R51: no command reads `STATUS` or any other output register, nor what scratch held: its
outcome never depends on an earlier command's result. -/
def Obligations.CommandIgnoresEarlierResults : Prop :=
  ∀ (i : Instr) (s : State) (o : OutputRegs) (c : ScratchRegs), i ≠ .nop →
    exec i { s with out := o, scratch := c } = exec i s

/-- 10_state R56: an input register not listed for a command has no effect on that command (`CLR`
zeroes them all and is left out). -/
def Obligations.CommandReadsOnlyItsOperands : Prop :=
  ∀ (i : Instr) (s : State) (x : InputRegs), i ≠ .clr → sameOperands i s.inp x →
    (∀ t, exec i s = .next t → exec i { s with inp := x } = .next { t with inp := x }) ∧
    (∀ f, exec i s = .fault f → exec i { s with inp := x } = .fault f)

/-- 20_memory R79: a `CMD` write is idempotent when its command drew no random byte. -/
def Obligations.CommandWithoutDrawsIsIdempotent : Prop :=
  ∀ (i : Instr) (s t : State), exec i s = .next t → t.rng = s.rng → exec i t = .next t

/-- 42_padding R171: how many random bytes a command that completes has drawn; a failing one has drawn
none. The counter is the model's (log entry 2). -/
def Obligations.DrawCounts : Prop :=
  ∀ (i : Instr) (s t : State), exec i s = .next t →
    t.rng.drawn = s.rng.drawn +
      (if t.out.status ≠ 0x00 then 0
       else if i = .enc1 then
         (if s.inp.noncelen = 0 then 7 - (s.inp.pinleni.toNat >>> 1) else 0)
       else if i = .enc3 then 14 - s.inp.pinleni.toNat
       else if i = .enc4 then 8
       else 0)

/-- The model's source (log entry 2; 42_padding R170, R171): supplied answers are drawn in order, each
once, and behind them the free values, in request order. The bytes an `RNG` statement (30_encoding R110)
states become answers when its turn in the script comes, so for the commands that follow it; what an
earlier one left comes first, which is the model's choice (log entry 14). Loading the script (log entry
1) supplies nothing yet. -/
def Obligations.AnswersAreDrawnInOrder : Prop :=
  ∀ (bs : List Byte) (rest : List (Option Byte)) (d n : Nat),
    drawBytes bs.length { answers := bs.map some ++ rest, drawn := d } =
      some (bs, { answers := rest, drawn := d + bs.length }) ∧
    drawBytes n { answers := [], drawn := d } =
      some ((List.range n).map fun k => Config.rngByte (d + k), { answers := [], drawn := d + n }) ∧
    ∀ (s : State) (tail : List PortOp) (l : List Stmt),
      Stmt.expand (.rng bs) = [.supply bs] ∧ (s.load l).rng = s.rng ∧
      step (s.withScript (.supply bs :: tail)) = .next { s.withScript tail with
        rng := { answers := s.rng.answers ++ bs.map some, drawn := s.rng.drawn } }

/-! ### The packer -/

/-- 40_packer R134: `PACK a, b`. -/
def Obligations.PackResult : Prop :=
  ∀ (a b : Nibble) (s : State),
    let L := s.inp.pinleni.toNat % 16
    decodeWord (0x4000 ||| a.setWidth 16 <<< 4 ||| b.setWidth 16) = .ok (.pack a b) ∧
    if 12 < L then exec (.pack a b) s = .next (s.failedWith 0x02)
    else ∃ F : Vector Byte 8,
      (∀ k, k < 16 → nib F k = fieldNibble a s.inp.pini L (fun _ => b) k) ∧
      exec (.pack a b) s =
        .next (s.doneWith { OutputRegs.zero with blko := widen8 F, blkleno := 8 })

/-- 40_packer R135: `UNPACK`. -/
def Obligations.UnpackResult : Prop :=
  decodeWord 0x4100 = .ok .unpack ∧ ∀ s : State,
    let L := s.inp.pinleni.toNat % 16
    if 12 < L then exec .unpack s = .next (s.failedWith 0x02)
    else exec .unpack s =
      .next (s.doneWith (deliveredPin (fun k => nib s.inp.blki (2 + k)) L 0))

/-- 40_packer R133: `unpack` inverts `pack`, and `pack` of what `unpack` read agrees with the buffer on
the control nibble, the digits, a right length nibble, and exactly a right fill. -/
def Obligations.PackAndUnpackInvert : Prop :=
  ∀ (fmt fill : Nibble) (d : Vector Nibble 12) (X : Vector Byte 8) (len : Byte),
    let Le := len.toNat % 16
    let Y := pack (nib X 0) (Vector.ofFn fun k : Fin 12 => (unpack X len).getD k.val 0) len fill
    Le ≤ 12 →
    unpack (pack fmt d len fill) len = (List.range Le).map (digitAt d) ∧
    nib Y 0 = nib X 0 ∧ (∀ k, 2 ≤ k → k < 2 + Le → nib Y k = nib X k) ∧
    ((nib X 1).toNat = Le → nib Y 1 = nib X 1) ∧
    ((∀ k, 2 + Le ≤ k → k < 16 → nib Y k = nib X k) ↔ (∀ k, 2 + Le ≤ k → k < 16 → nib X k = fill))

/-- 40_packer R131: `PACK` uses only the low 4 bits of the length. -/
def Obligations.PackMasksTheLength : Prop :=
  ∀ (a b : Nibble) (s t u : State) (len : Byte), len &&& 0x0F = s.inp.pinleni &&& 0x0F →
    exec (.pack a b) s = .next t →
    exec (.pack a b) { s with inp := { s.inp with pinleni := len } } = .next u → u.out = t.out

/-! ### The PAN field deriver -/

/-- 41_pan_field R155, with the field as R151 describes it: `DRV64`. -/
def Obligations.DrvSixtyFourResult : Prop :=
  decodeWord 0x4200 = .ok .drv64 ∧ ∀ s : State,
    let n := s.inp.panlen.toNat
    if n = 0 ∨ 10 < n then exec .drv64 s = .next (s.failedWith 0x01)
    else ∃ N : Vector Byte 8,
      (∀ k, k < 16 → nib N k = panNibble s.inp.pan n k) ∧
      exec .drv64 s = .next (s.doneWith { OutputRegs.zero with fldo := widen8 N, fldleno := 8 })

/-- 41_pan_field R156, with the field as R153 lays it out: `DRV128`. `c` is the digit count: every PAN
nibble from `c` on is a pad nibble, and the one before it is not. -/
def Obligations.DrvOneTwentyEightResult : Prop :=
  decodeWord 0x4300 = .ok .drv128 ∧ ∀ s : State,
    let n := s.inp.panlen.toNat
    if n = 0 ∨ 10 < n then exec .drv128 s = .next (s.failedWith 0x01)
    else ∃ (c : Nat) (N : Vector Byte 16), c ≤ 2 * n ∧
      (∀ j, c ≤ j → j < 2 * n → nib s.inp.pan j = 0xF) ∧
      (0 < c → nib s.inp.pan (c - 1) ≠ 0xF) ∧
      (c ≤ 12 → ∀ k, k < 32 → nib N k =
        if 13 - c ≤ k ∧ k ≤ 12 then nib s.inp.pan (k - (13 - c)) else 0) ∧
      (12 < c → ∀ k, k < 32 → nib N k =
        if k = 0 then BitVec.ofNat 4 (c - 12) else if k ≤ c then nib s.inp.pan (k - 1) else 0) ∧
      exec .drv128 s = .next (s.doneWith { OutputRegs.zero with fldo := N, fldleno := 16 })

/-! ### The combiner -/

/-- 43_combiner R192: `XOR`. -/
def Obligations.XorResult : Prop :=
  decodeWord 0x4400 = .ok .xor ∧ ∀ s : State,
    let n := s.inp.blkleni.toNat
    if n = 0 then exec .xor s = .next (s.failedWith 0x01)
    else if n ≠ 8 ∧ n ≠ 16 then exec .xor s = .next (s.failedWith 0x03)
    else exec .xor s = .next (s.doneWith { OutputRegs.zero with
      blko := Vector.ofFn fun k : Fin 16 => if k.val < n then s.inp.blki[k] ^^^ s.inp.fldi[k] else 0
      blkleno := s.inp.blkleni })

/-- 43_combiner R191: commutative, associative, identity, self-inverse, and not idempotent: an array
combined with itself is zero. -/
def Obligations.CombineLaws : Prop :=
  ∀ (n : Nat) (a b c : Vector Byte n),
    combine a b = combine b a ∧ combine (combine a b) c = combine a (combine b c) ∧
    combine a (Vector.replicate n 0) = a ∧ combine (combine a b) b = a ∧
    combine a a = Vector.replicate n 0

/-! ### Padding -/

/-- 42_padding R173: the complete map of a random byte to a padding digit, and its formula. -/
def Obligations.PadnibMap : Prop :=
  ∀ b : Byte, (padnib b =
    if b.toNat ≤ 42 then 0xA else if b.toNat ≤ 85 then 0xB else if b.toNat ≤ 127 then 0xC
    else if b.toNat ≤ 170 then 0xD else if b.toNat ≤ 213 then 0xE else 0xF) ∧
    (padnib b).toNat = (b.toNat * 6) >>> 8 + 0xA

/-! ### The encoders -/

/-- 44_encode R203: `ENC0`. -/
def Obligations.EncodeFormatZeroResult : Prop :=
  decodeWord 0x1000 = .ok .enc0 ∧ ∀ s : State,
    let L := s.inp.pinleni.toNat
    let n := s.inp.panlen.toNat
    if L = 0 ∨ n = 0 ∨ 10 < n then exec .enc0 s = .next (s.failedWith 0x01)
    else if L < 4 ∨ 12 < L then exec .enc0 s = .next (s.failedWith 0x02)
    else ∃ F : Vector Byte 8,
      (∀ k, k < 16 → nib F k =
        fieldNibble 0x0 s.inp.pini L (fun _ => 0xF) k ^^^ panNibble s.inp.pan n k) ∧
      exec .enc0 s = .next (s.doneWith { OutputRegs.zero with blko := widen8 F, blkleno := 8 })

/-- 44_encode R204: `ENC1`. The padding bytes are `S[j] = NONCE[NONCELEN - 1 - j]`, or the bytes drawn,
one request for each padding byte (the source as in log entry 2). -/
def Obligations.EncodeFormatOneResult : Prop :=
  decodeWord 0x1100 = .ok .enc1 ∧ ∀ s : State,
    let L := s.inp.pinleni.toNat
    let n := s.inp.noncelen.toNat
    let cap := 7 - (L >>> 1)
    if L = 0 ∨ 8 < n then exec .enc1 s = .next (s.failedWith 0x01)
    else if L < 4 ∨ 12 < L then exec .enc1 s = .next (s.failedWith 0x02)
    else if n ≠ 0 ∧ n < cap then exec .enc1 s = .next (s.failedWith 0x06)
    else if n ≠ 0 then ∃ F : Vector Byte 8,
      (∀ k, k < 16 → nib F k = fieldNibble 0x1 s.inp.pini L
        (paddingNibble (fun j => byteAt s.inp.nonce (n - 1 - j)) L) k) ∧
      exec .enc1 s = .next (s.doneWith { OutputRegs.zero with blko := widen8 F, blkleno := 8 })
    else s.rng.responsive = true → ∃ (r : List Byte) (g : RngSource) (F : Vector Byte 8),
      drawBytes cap s.rng = some (r, g) ∧ r.length = cap ∧
      (∀ k, k < 16 → nib F k = fieldNibble 0x1 s.inp.pini L
        (paddingNibble (fun j => r.getD j 0) L) k) ∧
      exec .enc1 s = .next ((s.doneWith { OutputRegs.zero with blko := widen8 F, blkleno := 8 }).withRng g)

/-- 44_encode R205: `ENC2`. -/
def Obligations.EncodeFormatTwoResult : Prop :=
  decodeWord 0x1200 = .ok .enc2 ∧ ∀ s : State,
    let L := s.inp.pinleni.toNat
    if L = 0 then exec .enc2 s = .next (s.failedWith 0x01)
    else if L < 4 ∨ 12 < L then exec .enc2 s = .next (s.failedWith 0x02)
    else ∃ F : Vector Byte 8,
      (∀ k, k < 16 → nib F k = fieldNibble 0x2 s.inp.pini L (fun _ => 0xF) k) ∧
      exec .enc2 s = .next (s.doneWith { OutputRegs.zero with blko := widen8 F, blkleno := 8 })

/-- 44_encode R206: `ENC3` (the random-byte source as in log entry 2). -/
def Obligations.EncodeFormatThreeResult : Prop :=
  decodeWord 0x1300 = .ok .enc3 ∧ ∀ s : State,
    let L := s.inp.pinleni.toNat
    let n := s.inp.panlen.toNat
    if L = 0 ∨ n = 0 ∨ 10 < n then exec .enc3 s = .next (s.failedWith 0x01)
    else if L < 4 ∨ 12 < L then exec .enc3 s = .next (s.failedWith 0x02)
    else s.rng.responsive = true → ∃ (r : List Byte) (g : RngSource) (F : Vector Byte 8),
      drawBytes (14 - L) s.rng = some (r, g) ∧ r.length = 14 - L ∧
      (∀ k, k < 16 → nib F k =
        fieldNibble 0x3 s.inp.pini L
          (fun k => BitVec.ofNat 4 (((r.getD (k - (2 + L)) 0).toNat * 6) / 256 + 0xA)) k ^^^
        panNibble s.inp.pan n k) ∧
      exec .enc3 s = .next ((s.doneWith { OutputRegs.zero with blko := widen8 F, blkleno := 8 }).withRng g)

/-- 44_encode R207: `ENC4` (the random-byte source as in log entry 2). -/
def Obligations.EncodeFormatFourResult : Prop :=
  decodeWord 0x1400 = .ok .enc4 ∧ ∀ s : State,
    let L := s.inp.pinleni.toNat
    if L = 0 then exec .enc4 s = .next (s.failedWith 0x01)
    else if L < 4 ∨ 12 < L then exec .enc4 s = .next (s.failedWith 0x02)
    else s.rng.responsive = true → ∃ (r : List Byte) (g : RngSource) (F : Vector Byte 16),
      drawBytes 8 s.rng = some (r, g) ∧ r.length = 8 ∧
      (∀ k, k < 16 → nib F k = fieldNibble 0x4 s.inp.pini L (fun _ => 0xA) k) ∧
      (∀ j, j < 8 → byteAt F (8 + j) = r.getD j 0) ∧
      exec .enc4 s = .next ((s.doneWith { OutputRegs.zero with blko := F, blkleno := 16 }).withRng g)

/-- 44_encode R205 corner case 2: `ENC2` equals `PACK 2, 15` for a PIN length of 4 to 12. -/
def Obligations.EncodeFormatTwoIsPack : Prop :=
  ∀ s : State, 4 ≤ s.inp.pinleni.toNat → s.inp.pinleni.toNat ≤ 12 →
    ∃ t, exec .enc2 s = .next t ∧ exec (.pack 2 15) s = .next t

/-! ### The decoders -/

/-- 45_decode R235: `DEC0`. -/
def Obligations.DecodeFormatZeroResult : Prop :=
  decodeWord 0x2000 = .ok .dec0 ∧ ∀ s : State,
    let n := s.inp.panlen.toNat
    let L := (nib s.inp.blki 1).toNat
    let U := fun k => nib s.inp.blki k ^^^ panNibble s.inp.pan n k
    if s.inp.blkleni = 0 ∨ n = 0 ∨ 10 < n then exec .dec0 s = .next (s.failedWith 0x01)
    else if s.inp.blkleni ≠ 8 then exec .dec0 s = .next (s.failedWith 0x03)
    else if nib s.inp.blki 0 ≠ 0x0 then exec .dec0 s = .next (s.failedWith 0x04)
    else if L < 4 ∨ 12 < L then exec .dec0 s = .next (s.failedWith 0x02)
    else if ∃ k : Fin 16, 2 + L ≤ k.val ∧ U k.val ≠ 0xF then
      exec .dec0 s = .next (s.failedWith 0x05)
    else exec .dec0 s = .next (s.doneWith (deliveredPin (fun k => U (2 + k)) L 0))

/-- 45_decode R236: `DEC1`. -/
def Obligations.DecodeFormatOneResult : Prop :=
  decodeWord 0x2100 = .ok .dec1 ∧ ∀ s : State,
    let L := (nib s.inp.blki 1).toNat
    if s.inp.blkleni = 0 then exec .dec1 s = .next (s.failedWith 0x01)
    else if s.inp.blkleni ≠ 8 then exec .dec1 s = .next (s.failedWith 0x03)
    else if nib s.inp.blki 0 ≠ 0x1 then exec .dec1 s = .next (s.failedWith 0x04)
    else if L < 4 ∨ 12 < L then exec .dec1 s = .next (s.failedWith 0x02)
    else exec .dec1 s =
      .next (s.doneWith (deliveredPin (fun k => nib s.inp.blki (2 + k)) L 1))

/-- 45_decode R237: `DEC2`. -/
def Obligations.DecodeFormatTwoResult : Prop :=
  decodeWord 0x2200 = .ok .dec2 ∧ ∀ s : State,
    let L := (nib s.inp.blki 1).toNat
    if s.inp.blkleni = 0 then exec .dec2 s = .next (s.failedWith 0x01)
    else if s.inp.blkleni ≠ 8 then exec .dec2 s = .next (s.failedWith 0x03)
    else if nib s.inp.blki 0 ≠ 0x2 then exec .dec2 s = .next (s.failedWith 0x04)
    else if L < 4 ∨ 12 < L then exec .dec2 s = .next (s.failedWith 0x02)
    else if ∃ k : Fin 16, 2 + L ≤ k.val ∧ nib s.inp.blki k.val ≠ 0xF then
      exec .dec2 s = .next (s.failedWith 0x05)
    else exec .dec2 s =
      .next (s.doneWith (deliveredPin (fun k => nib s.inp.blki (2 + k)) L 2))

/-- 45_decode R238: `DEC3`. -/
def Obligations.DecodeFormatThreeResult : Prop :=
  decodeWord 0x2300 = .ok .dec3 ∧ ∀ s : State,
    let n := s.inp.panlen.toNat
    let L := (nib s.inp.blki 1).toNat
    let U := fun k => nib s.inp.blki k ^^^ panNibble s.inp.pan n k
    if s.inp.blkleni = 0 ∨ n = 0 ∨ 10 < n then exec .dec3 s = .next (s.failedWith 0x01)
    else if s.inp.blkleni ≠ 8 then exec .dec3 s = .next (s.failedWith 0x03)
    else if nib s.inp.blki 0 ≠ 0x3 then exec .dec3 s = .next (s.failedWith 0x04)
    else if L < 4 ∨ 12 < L then exec .dec3 s = .next (s.failedWith 0x02)
    else if (∃ k : Fin 16, 2 ≤ k.val ∧ k.val < 2 + L ∧ 9 < (U k.val).toNat) ∨
        (∃ k : Fin 16, 2 + L ≤ k.val ∧ (U k.val).toNat < 10) then
      exec .dec3 s = .next (s.failedWith 0x05)
    else exec .dec3 s = .next (s.doneWith (deliveredPin (fun k => U (2 + k)) L 3))

/-- 45_decode R239: `DEC4`. -/
def Obligations.DecodeFormatFourResult : Prop :=
  decodeWord 0x2400 = .ok .dec4 ∧ ∀ s : State,
    let L := (nib s.inp.blki 1).toNat
    if s.inp.blkleni = 0 then exec .dec4 s = .next (s.failedWith 0x01)
    else if s.inp.blkleni ≠ 16 then exec .dec4 s = .next (s.failedWith 0x03)
    else if nib s.inp.blki 0 ≠ 0x4 then exec .dec4 s = .next (s.failedWith 0x04)
    else if L < 4 ∨ 12 < L then exec .dec4 s = .next (s.failedWith 0x02)
    else if ∃ k : Fin 16, 2 + L ≤ k.val ∧ nib s.inp.blki k.val ≠ 0xA then
      exec .dec4 s = .next (s.failedWith 0x05)
    else exec .dec4 s =
      .next (s.doneWith (deliveredPin (fun k => nib s.inp.blki (2 + k)) L 4))

/-- 45_decode R232: the first-byte check of the masked formats cannot fail, whatever the PAN. -/
def Obligations.FirstByteCheckNeverFails : Prop :=
  ∀ inp : InputRegs, firstByteOk inp (combine inp.blk8 inp.panField8) = true

/-! ### The dispatcher -/

/-- 46_dispatch R261 with the table of R260: `GETFMT`. -/
def Obligations.GetfmtResult : Prop :=
  decodeWord 0x3000 = .ok .getfmt ∧ ∀ s : State,
    let len := s.inp.blkleni.toNat
    let c := (nib s.inp.blki 0).toNat
    if len = 0 then exec .getfmt s = .next (s.failedWith 0x01)
    else if len ≠ 8 ∧ len ≠ 16 then exec .getfmt s = .next (s.failedWith 0x03)
    else if (len = 8 ∧ c ≤ 3) ∨ (len = 16 ∧ c = 4) then
      exec .getfmt s = .next (s.doneWith { OutputRegs.zero with fmto := nib s.inp.blki 0 })
    else exec .getfmt s = .next (s.failedWith 0x04)

/-- 46_dispatch R263 with the routing of R262: `DECODE` runs the decoder of the block's format, which
answers a next state, and fails as `ident` does when there is none. -/
def Obligations.DecodeRoutesToTheFormatsDecoder : Prop :=
  decodeWord 0x3100 = .ok .decode ∧ ∀ s : State,
    let len := s.inp.blkleni.toNat
    let c := (nib s.inp.blki 0).toNat
    (len = 0 → exec .decode s = .next (s.failedWith 0x01)) ∧
    (len ≠ 0 → len ≠ 8 → len ≠ 16 → exec .decode s = .next (s.failedWith 0x03)) ∧
    (len = 8 → c = 0 → ∃ t, exec .dec0 s = .next t ∧ exec .decode s = .next t) ∧
    (len = 8 → c = 1 → ∃ t, exec .dec1 s = .next t ∧ exec .decode s = .next t) ∧
    (len = 8 → c = 2 → ∃ t, exec .dec2 s = .next t ∧ exec .decode s = .next t) ∧
    (len = 8 → c = 3 → ∃ t, exec .dec3 s = .next t ∧ exec .decode s = .next t) ∧
    (len = 16 → c = 4 → ∃ t, exec .dec4 s = .next t ∧ exec .decode s = .next t) ∧
    (len = 8 → 3 < c → exec .decode s = .next (s.failedWith 0x04)) ∧
    (len = 16 → c ≠ 4 → exec .decode s = .next (s.failedWith 0x04))

/-- `DECODE` delivers the PIN of a good format-2 block, whatever `PANLEN` holds (46_dispatch R262, R263,
45_decode R237). -/
def Obligations.DecodeDeliversAFormatTwoPin : Prop :=
  ∀ s : State,
    let L := (nib s.inp.blki 1).toNat
    s.inp.blkleni = 8 → nib s.inp.blki 0 = 2 → 4 ≤ L → L ≤ 12 →
    (∀ k, 2 + L ≤ k → k < 16 → nib s.inp.blki k = 0xF) →
    exec .decode s = .next (s.doneWith (deliveredPin (fun k => nib s.inp.blki (2 + k)) L 2))

/-- 46_dispatch R264: where `GETFMT` succeeds, the decoder of the tag it gives and `DECODE` do the
same. -/
def Obligations.GetfmtThenDecoderIsDecode : Prop :=
  ∀ s t : State, exec .getfmt s = .next t → t.out.status = 0x00 →
    (t.out.fmto = 0 → ∃ u, exec .dec0 t = .next u ∧ exec .decode s = .next u) ∧
    (t.out.fmto = 1 → ∃ u, exec .dec1 t = .next u ∧ exec .decode s = .next u) ∧
    (t.out.fmto = 2 → ∃ u, exec .dec2 t = .next u ∧ exec .decode s = .next u) ∧
    (t.out.fmto = 3 → ∃ u, exec .dec3 t = .next u ∧ exec .decode s = .next u) ∧
    (t.out.fmto = 4 → ∃ u, exec .dec4 t = .next u ∧ exec .decode s = .next u) ∧
    t.out.fmto.toNat ≤ 4

/-! ### The commands together -/

/-- 43_combiner R193, first script: `PACK 0, 15`, `DRV64` and `XOR` on what they produced leave in
`BLKO` what `ENC0` leaves. -/
def Obligations.PrimitivesChainToEncodeZero : Prop :=
  ∀ s p d x e : State,
    4 ≤ s.inp.pinleni.toNat → s.inp.pinleni.toNat ≤ 12 →
    1 ≤ s.inp.panlen.toNat → s.inp.panlen.toNat ≤ 10 →
    exec (.pack 0 15) s = .next p → exec .drv64 s = .next d →
    x.inp.blki = p.out.blko → x.inp.blkleni = p.out.blkleno → x.inp.fldi = d.out.fldo →
    exec .enc0 s = .next e →
    ∃ t, exec .xor x = .next t ∧ t.out = e.out

/-- 43_combiner R193, second script: `DRV64`, `XOR` and `UNPACK` on a format 0 or 3 block deliver the
digits that `DEC0` or `DEC3` delivers when it succeeds. -/
def Obligations.PrimitivesChainToDecode : Prop :=
  ∀ (s d x y z u : State) (i : Instr), i = .dec0 ∨ i = .dec3 →
    exec i s = .next u → u.out.status = 0x00 →
    exec .drv64 s = .next d →
    x.inp.blki = s.inp.blki → x.inp.blkleni = s.inp.blkleni → x.inp.fldi = d.out.fldo →
    exec .xor x = .next y →
    z.inp.blki = y.out.blko → z.inp.pinleni = (nib s.inp.blki 1).setWidth 8 →
    ∃ t, exec .unpack z = .next t ∧ t.out.pino = u.out.pino ∧ t.out.pinleno = u.out.pinleno ∧
      t.out.status = 0x00

/-- 44_encode R210, format 0: what `ENC0` makes, `DEC0` and `DECODE` with the same PAN turn back into the
PIN, for every digit value. -/
def Obligations.RoundTripFormatZero : Prop :=
  ∀ s t u : State, exec .enc0 s = .next t → t.out.status = 0x00 →
    u.inp.blki = t.out.blko → u.inp.blkleni = t.out.blkleno →
    u.inp.pan = s.inp.pan → u.inp.panlen = s.inp.panlen →
    exec .dec0 u = .next (u.doneWith (deliveredPin (digitAt s.inp.pini) s.inp.pinleni.toNat 0)) ∧
    exec .decode u = .next (u.doneWith (deliveredPin (digitAt s.inp.pini) s.inp.pinleni.toNat 0))

/-- 44_encode R210, format 3: the same for `ENC3` and decimal digits, for every sequence of random
bytes; a digit above 9 encodes and then fails to decode (R202). -/
def Obligations.RoundTripFormatThree : Prop :=
  ∀ s t u : State, exec .enc3 s = .next t → t.out.status = 0x00 →
    u.inp.blki = t.out.blko → u.inp.blkleni = t.out.blkleno →
    u.inp.pan = s.inp.pan → u.inp.panlen = s.inp.panlen →
    let L := s.inp.pinleni.toNat
    if ∀ k : Fin 12, k.val < L → (digitAt s.inp.pini k).toNat ≤ 9 then
      exec .dec3 u = .next (u.doneWith (deliveredPin (digitAt s.inp.pini) L 3)) ∧
      exec .decode u = .next (u.doneWith (deliveredPin (digitAt s.inp.pini) L 3))
    else exec .dec3 u = .next (u.failedWith 0x05) ∧ exec .decode u = .next (u.failedWith 0x05)

/-- 44_encode R210, formats 1, 2 and 4: no PAN, every nonce, every sequence of random bytes, every digit
value. -/
def Obligations.RoundTripUnmaskedFormats : Prop :=
  ∀ s t u : State, t.out.status = 0x00 →
    u.inp.blki = t.out.blko → u.inp.blkleni = t.out.blkleno →
    (exec .enc1 s = .next t →
      exec .dec1 u = .next (u.doneWith (deliveredPin (digitAt s.inp.pini) s.inp.pinleni.toNat 1)) ∧
      exec .decode u =
        .next (u.doneWith (deliveredPin (digitAt s.inp.pini) s.inp.pinleni.toNat 1))) ∧
    (exec .enc2 s = .next t →
      exec .dec2 u = .next (u.doneWith (deliveredPin (digitAt s.inp.pini) s.inp.pinleni.toNat 2)) ∧
      exec .decode u =
        .next (u.doneWith (deliveredPin (digitAt s.inp.pini) s.inp.pinleni.toNat 2))) ∧
    (exec .enc4 s = .next t →
      exec .dec4 u = .next (u.doneWith (deliveredPin (digitAt s.inp.pini) s.inp.pinleni.toNat 4)) ∧
      exec .decode u =
        .next (u.doneWith (deliveredPin (digitAt s.inp.pini) s.inp.pinleni.toNat 4)))

/-- 45_decode R240 (a): decoding a format-0 block with another PAN fails with `ST_INTEGRITY` exactly when
the two PAN fields differ in a nibble from `2 + L` on; otherwise it succeeds and delivers the digits
XORed with the difference. -/
def Obligations.WrongPanDetectionFormatZero : Prop :=
  ∀ s t u : State, exec .enc0 s = .next t → t.out.status = 0x00 →
    u.inp.blki = t.out.blko → u.inp.blkleni = t.out.blkleno →
    1 ≤ u.inp.panlen.toNat → u.inp.panlen.toNat ≤ 10 →
    let L := s.inp.pinleni.toNat
    let X := fun k => panNibble s.inp.pan s.inp.panlen.toNat k ^^^
      panNibble u.inp.pan u.inp.panlen.toNat k
    if ∃ k : Fin 16, 2 + L ≤ k.val ∧ X k.val ≠ 0 then
      exec .dec0 u = .next (u.failedWith 0x05)
    else exec .dec0 u = .next (u.doneWith
      (deliveredPin (fun k => digitAt s.inp.pini k ^^^ X (2 + k)) L 0))
end

