-- ==== Sys2Proof/Laws/State.lean ====
section
/-! SUPPORT. The small lemmas of the state's updates: one per field per update, each true by
unfolding, so that no later proof unfolds a record update. -/

namespace Sys2Proof.Machine

section clearOutputs
variable (s : State)
@[simp] theorem State.clearOutputs_inp : s.clearOutputs.inp = s.inp := rfl
@[simp] theorem State.clearOutputs_out : s.clearOutputs.out = .zero := rfl
@[simp] theorem State.clearOutputs_scratch : s.clearOutputs.scratch = s.scratch := rfl
@[simp] theorem State.clearOutputs_port : s.clearOutputs.port = s.port := rfl
@[simp] theorem State.clearOutputs_rng : s.clearOutputs.rng = s.rng := rfl
end clearOutputs

section loads
variable (s : State) (F : Vector Byte 16)
@[simp] theorem State.loadPF_inp : (s.loadPF F).inp = s.inp := rfl
@[simp] theorem State.loadPF_out : (s.loadPF F).out = s.out := rfl
@[simp] theorem State.loadPF_pf : (s.loadPF F).scratch.pf = F := rfl
@[simp] theorem State.loadPF_nf : (s.loadPF F).scratch.nf = s.scratch.nf := rfl
@[simp] theorem State.loadPF_port : (s.loadPF F).port = s.port := rfl
@[simp] theorem State.loadPF_rng : (s.loadPF F).rng = s.rng := rfl
@[simp] theorem State.loadNF_inp : (s.loadNF F).inp = s.inp := rfl
@[simp] theorem State.loadNF_out : (s.loadNF F).out = s.out := rfl
@[simp] theorem State.loadNF_pf : (s.loadNF F).scratch.pf = s.scratch.pf := rfl
@[simp] theorem State.loadNF_nf : (s.loadNF F).scratch.nf = F := rfl
@[simp] theorem State.loadNF_port : (s.loadNF F).port = s.port := rfl
@[simp] theorem State.loadNF_rng : (s.loadNF F).rng = s.rng := rfl
end loads

section finish
variable (s : State) (o : OutputRegs)
@[simp] theorem State.finish_inp : (s.finish o).inp = s.inp := rfl
@[simp] theorem State.finish_out : (s.finish o).out = { o with status := 0 } := rfl
@[simp] theorem State.finish_scratch : (s.finish o).scratch = .zero := rfl
@[simp] theorem State.finish_port : (s.finish o).port = s.port := rfl
@[simp] theorem State.finish_rng : (s.finish o).rng = s.rng := rfl
end finish

section fail
variable (s : State) (c : Code)
@[simp] theorem State.fail_inp : (s.fail c).inp = s.inp := rfl
@[simp] theorem State.fail_out :
    (s.fail c).out = { OutputRegs.zero with status := c.toByte } := rfl
@[simp] theorem State.fail_scratch : (s.fail c).scratch = .zero := rfl
@[simp] theorem State.fail_port : (s.fail c).port = s.port := rfl
@[simp] theorem State.fail_rng : (s.fail c).rng = s.rng := rfl
end fail

section zeroRegisters
variable (s : State)
@[simp] theorem State.zeroRegisters_inp : s.zeroRegisters.inp = .zero := rfl
@[simp] theorem State.zeroRegisters_out : s.zeroRegisters.out = .zero := rfl
@[simp] theorem State.zeroRegisters_scratch : s.zeroRegisters.scratch = .zero := rfl
@[simp] theorem State.zeroRegisters_port : s.zeroRegisters.port = s.port := rfl
@[simp] theorem State.zeroRegisters_rng : s.zeroRegisters.rng = s.rng := rfl
end zeroRegisters

section port
variable (s : State) (ops : List PortOp) (v : Word) (g : Bool)
@[simp] theorem State.withScript_inp : (s.withScript ops).inp = s.inp := rfl
@[simp] theorem State.withScript_out : (s.withScript ops).out = s.out := rfl
@[simp] theorem State.withScript_scratch : (s.withScript ops).scratch = s.scratch := rfl
@[simp] theorem State.withScript_script : (s.withScript ops).port.script = ops := rfl
@[simp] theorem State.withScript_rdata : (s.withScript ops).port.rdata = s.port.rdata := rfl
@[simp] theorem State.withScript_expectOk :
    (s.withScript ops).port.expectOk = s.port.expectOk := rfl
@[simp] theorem State.withScript_rng : (s.withScript ops).rng = s.rng := rfl
@[simp] theorem State.takeRead_inp : (s.takeRead v).inp = s.inp := rfl
@[simp] theorem State.takeRead_out : (s.takeRead v).out = s.out := rfl
@[simp] theorem State.takeRead_scratch : (s.takeRead v).scratch = s.scratch := rfl
@[simp] theorem State.takeRead_script : (s.takeRead v).port.script = s.port.script := rfl
@[simp] theorem State.takeRead_rdata : (s.takeRead v).port.rdata = v := rfl
@[simp] theorem State.takeRead_expectOk : (s.takeRead v).port.expectOk = s.port.expectOk := rfl
@[simp] theorem State.takeRead_rng : (s.takeRead v).rng = s.rng := rfl
@[simp] theorem State.noteExpect_inp : (s.noteExpect g).inp = s.inp := rfl
@[simp] theorem State.noteExpect_out : (s.noteExpect g).out = s.out := rfl
@[simp] theorem State.noteExpect_scratch : (s.noteExpect g).scratch = s.scratch := rfl
@[simp] theorem State.noteExpect_script : (s.noteExpect g).port.script = s.port.script := rfl
@[simp] theorem State.noteExpect_rdata : (s.noteExpect g).port.rdata = s.port.rdata := rfl
@[simp] theorem State.noteExpect_expectOk :
    (s.noteExpect g).port.expectOk = (s.port.expectOk && g) := rfl
@[simp] theorem State.noteExpect_rng : (s.noteExpect g).rng = s.rng := rfl
end port

section supply
variable (g : RngSource) (bytes : List Byte)
@[simp] theorem RngSource.supply_answers :
    (g.supply bytes).answers = g.answers ++ bytes.map some := rfl
@[simp] theorem RngSource.supply_drawn : (g.supply bytes).drawn = g.drawn := rfl
end supply

section withRng
variable (s : State) (g : RngSource)
@[simp] theorem State.withRng_inp : (s.withRng g).inp = s.inp := rfl
@[simp] theorem State.withRng_out : (s.withRng g).out = s.out := rfl
@[simp] theorem State.withRng_scratch : (s.withRng g).scratch = s.scratch := rfl
@[simp] theorem State.withRng_port : (s.withRng g).port = s.port := rfl
@[simp] theorem State.withRng_rng : (s.withRng g).rng = g := rfl
@[simp] theorem State.withRng_self : s.withRng s.rng = s := rfl
end withRng

section fields
variable (s : State) (fmt fill : Nibble)
@[simp] theorem State.buildPinField_inp : (s.buildPinField fmt fill).inp = s.inp := by
  simp [State.buildPinField]
@[simp] theorem State.buildPinField_port : (s.buildPinField fmt fill).port = s.port := by
  simp [State.buildPinField]
@[simp] theorem State.buildPinField_rng : (s.buildPinField fmt fill).rng = s.rng := by
  simp [State.buildPinField]
@[simp] theorem State.buildPanField_inp : s.buildPanField.inp = s.inp := by simp [State.buildPanField]
@[simp] theorem State.buildPanField_port : s.buildPanField.port = s.port := by simp [State.buildPanField]
@[simp] theorem State.buildPanField_rng : s.buildPanField.rng = s.rng := by simp [State.buildPanField]
@[simp] theorem State.unmask_inp : s.unmask.inp = s.inp := by simp [State.unmask]
@[simp] theorem State.unmask_port : s.unmask.port = s.port := by simp [State.unmask]
@[simp] theorem State.unmask_rng : s.unmask.rng = s.rng := by simp [State.unmask]
@[simp] theorem State.takeBlock_inp : s.takeBlock.inp = s.inp := by simp [State.takeBlock]
@[simp] theorem State.takeBlock_port : s.takeBlock.port = s.port := by simp [State.takeBlock]
@[simp] theorem State.takeBlock_rng : s.takeBlock.rng = s.rng := by simp [State.takeBlock]
end fields

section outputs
variable (F : Vector Byte 8) (G : Vector Byte 16) (d : List Nibble) (l : Byte) (t : Nibble)
@[simp] theorem OutputRegs.block8_status : (OutputRegs.block8 F).status = 0 := rfl
@[simp] theorem OutputRegs.block8_blko : (OutputRegs.block8 F).blko = widen8 F := rfl
@[simp] theorem OutputRegs.block8_blkleno : (OutputRegs.block8 F).blkleno = 8 := rfl
@[simp] theorem OutputRegs.block16_status : (OutputRegs.block16 G).status = 0 := rfl
@[simp] theorem OutputRegs.block16_blko : (OutputRegs.block16 G).blko = G := rfl
@[simp] theorem OutputRegs.block16_blkleno : (OutputRegs.block16 G).blkleno = 16 := rfl
@[simp] theorem OutputRegs.field8_fldo : (OutputRegs.field8 F).fldo = widen8 F := rfl
@[simp] theorem OutputRegs.field8_fldleno : (OutputRegs.field8 F).fldleno = 8 := rfl
@[simp] theorem OutputRegs.field16_fldo : (OutputRegs.field16 G).fldo = G := rfl
@[simp] theorem OutputRegs.field16_fldleno : (OutputRegs.field16 G).fldleno = 16 := rfl
@[simp] theorem OutputRegs.digits_pinleno : (OutputRegs.digits d l t).pinleno = l := rfl
@[simp] theorem OutputRegs.digits_fmto : (OutputRegs.digits d l t).fmto = t := rfl
@[simp] theorem OutputRegs.formatTag_fmto : (OutputRegs.formatTag t).fmto = t := rfl
end outputs

end Sys2Proof.Machine
end

