-- ==== Sys2Proof/Laws/Nibbles.lean ====
section
/-! SUPPORT. Laws of nibble addressing (spec 00_scope R8) and of 8-byte fields in 16-byte
registers. -/

namespace Sys2Proof.Machine

theorem hiNib_byteOf (h l : Nibble) : hiNib (byteOf h l) = h := by
  revert h l; decide

theorem loNib_byteOf (h l : Nibble) : loNib (byteOf h l) = l := by
  revert h l; decide

theorem byteOf_hiNib_loNib (b : Byte) : byteOf (hiNib b) (loNib b) = b := by
  revert b; decide

theorem hiNib_xor (a b : Byte) : hiNib (a ^^^ b) = hiNib a ^^^ hiNib b := by
  ext i; simp [hiNib]

theorem loNib_xor (a b : Byte) : loNib (a ^^^ b) = loNib a ^^^ loNib b := by
  ext i; simp [loNib]

theorem byteAt_eq_getElem {n : Nat} (X : Vector Byte n) (i : Nat) (h : i < n) :
    byteAt X i = X[i] := by
  simp [byteAt, h]

theorem byteAt_eq_zero {n : Nat} (X : Vector Byte n) (i : Nat) (h : n ≤ i) : byteAt X i = 0 := by
  simp [byteAt, Vector.getElem?_eq_none h]

theorem byteAt_ofFn {n : Nat} (f : Fin n → Byte) (i : Nat) (h : i < n) :
    byteAt (Vector.ofFn f) i = f ⟨i, h⟩ := by
  simp [byteAt, h]

/-- Two arrays with the same bytes are equal. -/
theorem vector_ext_byteAt {n : Nat} {X Y : Vector Byte n}
    (h : ∀ i, i < n → byteAt X i = byteAt Y i) : X = Y := by
  apply Vector.ext
  intro i hi
  have := h i hi
  rwa [byteAt_eq_getElem X i hi, byteAt_eq_getElem Y i hi] at this

theorem nib_even {n : Nat} (X : Vector Byte n) (i : Nat) : nib X (2 * i) = hiNib (byteAt X i) := by
  simp [nib, Nat.shiftRight_eq_div_pow]

theorem nib_odd {n : Nat} (X : Vector Byte n) (i : Nat) :
    nib X (2 * i + 1) = loNib (byteAt X i) := by
  have h : (2 * i + 1) / 2 = i := by omega
  simp [nib, Nat.shiftRight_eq_div_pow, h]

/-- A nibble law follows from its two cases, the nibbles of byte `i`. -/
theorem nibble_cases {P : Nat → Prop} (k : Nat) (he : ∀ i, k = 2 * i → P (2 * i))
    (ho : ∀ i, k = 2 * i + 1 → P (2 * i + 1)) : P k := by
  rcases Nat.even_or_odd' k with ⟨i, h | h⟩
  · exact h ▸ he i h
  · exact h ▸ ho i h

theorem byteAt_eq_nibs {n : Nat} (X : Vector Byte n) (i : Nat) :
    byteAt X i = byteOf (nib X (2 * i)) (nib X (2 * i + 1)) := by
  rw [nib_even, nib_odd, byteOf_hiNib_loNib]

/-- Two arrays with the same nibbles are equal. -/
theorem vector_ext_nib {n : Nat} {X Y : Vector Byte n}
    (h : ∀ k, k < 2 * n → nib X k = nib Y k) : X = Y := by
  apply vector_ext_byteAt
  intro i hi
  rw [byteAt_eq_nibs X, byteAt_eq_nibs Y, h _ (by omega), h _ (by omega)]

theorem nib_ofNibs {n : Nat} (f : Nat → Nibble) (k : Nat) (h : k < 2 * n) :
    nib (ofNibs n f) k = f k := by
  revert h
  refine nibble_cases (P := fun k => k < 2 * n → nib (ofNibs n f) k = f k) k ?_ ?_
  · intro i _ h
    rw [nib_even, ofNibs, byteAt_ofFn _ _ (by omega), hiNib_byteOf]
  · intro i _ h
    rw [nib_odd, ofNibs, byteAt_ofFn _ _ (by omega), loNib_byteOf]

theorem nib_beyond {n : Nat} (X : Vector Byte n) (k : Nat) (h : 2 * n ≤ k) : nib X k = 0 := by
  revert h
  refine nibble_cases (P := fun k => 2 * n ≤ k → nib X k = 0) k ?_ ?_
  · intro i _ h
    rw [nib_even, byteAt_eq_zero X i (by omega)]; rfl
  · intro i _ h
    rw [nib_odd, byteAt_eq_zero X i (by omega)]; rfl

theorem byteAt_first8 (X : Vector Byte 16) (i : Nat) (h : i < 8) :
    byteAt (first8 X) i = byteAt X i := by
  rw [first8, byteAt_ofFn _ _ h]

theorem byteAt_widen8 (F : Vector Byte 8) (i : Nat) : byteAt (widen8 F) i = byteAt F i := by
  by_cases h : i < 16
  · rw [widen8, byteAt_ofFn _ _ h]
  · rw [byteAt_eq_zero _ _ (by omega), byteAt_eq_zero _ _ (by omega)]

theorem first8_widen8 (F : Vector Byte 8) : first8 (widen8 F) = F := by
  apply vector_ext_byteAt
  intro i hi
  rw [byteAt_first8 _ _ hi, byteAt_widen8]

theorem nib_first8 (X : Vector Byte 16) (k : Nat) (h : k < 16) : nib (first8 X) k = nib X k := by
  have hk : k >>> 1 < 8 := by rw [Nat.shiftRight_eq_div_pow]; omega
  simp only [nib, byteAt_first8 X _ hk]

theorem nib_widen8 (F : Vector Byte 8) (k : Nat) : nib (widen8 F) k = nib F k := by
  simp only [nib, byteAt_widen8]

theorem widen8_beyond (F : Vector Byte 8) (i : Nat) (h : 8 ≤ i) : byteAt (widen8 F) i = 0 := by
  rw [byteAt_widen8, byteAt_eq_zero F i h]

/-- `everyNib` says that every nibble of the range satisfies the predicate. -/
theorem everyNib_iff {n : Nat} (X : Vector Byte n) (lo hi : Nat) (p : Nibble → Bool) :
    everyNib X lo hi p = true ↔ ∀ k, lo ≤ k → k < hi → p (nib X k) = true := by
  simp only [everyNib, List.all_eq_true, List.mem_range, Bool.or_eq_true, decide_eq_true_eq]
  constructor
  · intro h k hlo hhi
    rcases h k hhi with h | h
    · omega
    · exact h
  · intro h k hhi
    by_cases hlo : k < lo
    · exact .inl hlo
    · exact .inr (h k (by omega) hhi)

/-- Reading a nibble back after `setnib` gives the nibble written. -/
theorem nib_setnib_same {n : Nat} (X : Vector Byte n) (k : Nat) (v : Nibble) (h : k < 2 * n) :
    nib (setnib X k v) k = v := by
  have hk : k >>> 1 < n := by rw [Nat.shiftRight_eq_div_pow]; omega
  by_cases hp : k % 2 = 0
  · simp [nib, setnib, hp, byteAt, hk, hiNib_byteOf]
  · simp [nib, setnib, hp, byteAt, hk, loNib_byteOf]

/-- `setnib` leaves every other nibble alone. -/
theorem nib_setnib_other {n : Nat} (X : Vector Byte n) (k j : Nat) (v : Nibble) (hj : j ≠ k) :
    nib (setnib X k v) j = nib X j := by
  by_cases hb : k >>> 1 = j >>> 1
  · have hpar : k % 2 ≠ j % 2 := by
      simp only [Nat.shiftRight_eq_div_pow] at hb; omega
    by_cases hn : k >>> 1 < n
    · by_cases hp : k % 2 = 0
      · have hj2 : ¬ j % 2 = 0 := by omega
        simp [nib, setnib, hp, hj2, byteAt, ← hb, hn, loNib_byteOf]
      · have hj2 : j % 2 = 0 := by omega
        simp [nib, setnib, hp, hj2, byteAt, ← hb, hn, hiNib_byteOf]
    · simp [nib, setnib, byteAt, ← hb, hn]
  · simp [nib, setnib, byteAt, hb]

end Sys2Proof.Machine
end

