-- ==== Sys2Proof/Laws/Ops.lean ====
section
/-! SUPPORT. One lemma per shared operation: everything it can do. -/

namespace Sys2Proof.Machine

/-- A checked command fails with the code its check found, or runs its body on cleared outputs. -/
theorem checked_cases (s : State) (err : Option Code) (body : State → State) :
    (∃ c, err = some c ∧ s.checked err body = s.fail c) ∨
    (err = none ∧ s.checked err body = body s.clearOutputs) := by
  cases err with
  | some c => exact .inl ⟨c, rfl, rfl⟩
  | none => exact .inr ⟨rfl, rfl⟩

/-- One request: the source was not silent and has moved on by one answer. -/
theorem rngByte_some {g g' : RngSource} {b : Byte} (h : rngByte g = some (b, g')) :
    g'.drawn = g.drawn + 1 ∧ g'.answers = g.answers.drop 1 := by
  obtain ⟨as, d⟩ := g
  match as with
  | [] => simp only [rngByte, Option.some.injEq, Prod.mk.injEq] at h; simp [← h.2]
  | none :: _ => simp [rngByte] at h
  | some b :: rest => simp only [rngByte, Option.some.injEq, Prod.mk.injEq] at h; simp [← h.2]

/-- Draws that are answered: as many bytes as asked, and the source moved on by as many. -/
theorem drawBytes_some {n : Nat} {g g' : RngSource} {r : List Byte}
    (h : drawBytes n g = some (r, g')) :
    r.length = n ∧ g'.drawn = g.drawn + n ∧ g'.answers = g.answers.drop n := by
  induction n generalizing g g' r with
  | zero =>
    simp only [drawBytes, Option.some.injEq, Prod.mk.injEq] at h
    simp [← h.1, ← h.2]
  | succ n ih =>
    simp only [drawBytes] at h
    split at h
    · cases h
    · rename_i b g₁ h₁
      split at h
      · cases h
      · rename_i bs g₂ h₂
        simp only [Option.some.injEq, Prod.mk.injEq] at h
        obtain ⟨hr, rfl⟩ := h
        obtain ⟨hd, ha⟩ := rngByte_some h₁
        obtain ⟨hl, hd', ha'⟩ := ih h₂
        refine ⟨by simp [← hr, hl], by omega, ?_⟩
        rw [ha', ha, List.drop_drop, Nat.add_comm]

/-- A draw that is not answered met a silent answer. -/
theorem drawBytes_none {n : Nat} {g : RngSource} (h : drawBytes n g = none) :
    none ∈ g.answers := by
  induction n generalizing g with
  | zero => simp [drawBytes] at h
  | succ n ih =>
    simp only [drawBytes] at h
    split at h
    · rename_i h₁
      obtain ⟨as, d⟩ := g
      match as with
      | [] => simp [rngByte] at h₁
      | none :: _ => simp
      | some b :: rest => simp [rngByte] at h₁
    · rename_i b g₁ h₁
      split at h
      · rename_i h₂
        have := ih h₂
        rw [(rngByte_some h₁).2] at this
        exact List.mem_of_mem_drop this
      · cases h

/-- A source whose supplied answers are all bytes answers any number of requests. -/
theorem drawBytes_of_responsive (n : Nat) {g : RngSource} (h : g.responsive = true) :
    ∃ r g', drawBytes n g = some (r, g') := by
  cases hd : drawBytes n g with
  | some p => exact ⟨p.1, p.2, rfl⟩
  | none =>
    have := drawBytes_none hd
    simp only [RngSource.responsive, List.all_eq_true] at h
    simpa using h _ this

/-- A responsive source stays responsive when it has moved on. -/
theorem responsive_of_drop {g g' : RngSource} {n : Nat} (h : g.responsive = true)
    (ha : g'.answers = g.answers.drop n) : g'.responsive = true := by
  simp only [RngSource.responsive, List.all_eq_true] at *
  intro x hx
  exact h x (List.mem_of_mem_drop (ha ▸ hx))

/-- A responsive source stays responsive when a test supplies it with bytes (30_encoding R110 `RNG`). -/
theorem responsive_supply {g : RngSource} (h : g.responsive = true) (bytes : List Byte) :
    (g.supply bytes).responsive = true := by
  simp only [RngSource.responsive, RngSource.supply_answers, List.all_append, List.all_map,
    Bool.and_eq_true] at *
  exact ⟨h, by simp⟩

/-- A command that draws after its checks: it fails and draws nothing, or is stuck on a silent source, or
goes on with the bytes drawn. -/
theorem checkedDraws_cases (s : State) (err : Option Code) (n : Nat)
    (body : List Byte → State → State) :
    (∃ c, err = some c ∧ s.checkedDraws err n body = .next (s.fail c)) ∨
    (err = none ∧ drawBytes n s.rng = none ∧
      s.checkedDraws err n body = .fault .randomSourceSilent) ∨
    (∃ r g, err = none ∧ drawBytes n s.rng = some (r, g) ∧
      s.checkedDraws err n body = .next (body r (s.clearOutputs.withRng g))) := by
  cases err with
  | some c => exact .inl ⟨c, rfl, rfl⟩
  | none =>
    cases hd : drawBytes n s.rng with
    | none => exact .inr (.inl ⟨rfl, rfl, by simp [State.checkedDraws, State.withDraws, hd]⟩)
    | some p =>
      exact .inr (.inr ⟨p.1, p.2, rfl, rfl, by simp [State.checkedDraws, State.withDraws, hd]⟩)

/-- Completion does not depend on the outputs and scratch before it. -/
theorem finish_eq (s : State) (o : OutputRegs) : s.finish o = s.doneWith o := rfl

/-- Failure is the state `failedWith` describes. -/
theorem fail_eq (s : State) (c : Code) : s.fail c = s.failedWith c.toByte := rfl

theorem pinField_loadPF_widen8 (s : State) (F : Vector Byte 8) :
    (s.loadPF (widen8 F)).pinField = F := first8_widen8 F

theorem pinField_buildPinField (s : State) (fmt fill : Nibble) :
    (s.buildPinField fmt fill).pinField = pack fmt s.inp.pini s.inp.pinleni fill := by
  simp [State.pinField, State.buildPinField, first8_widen8]

theorem panField_buildPanField (s : State) : s.buildPanField.panField = s.inp.panField8 := by
  simp [State.panField, State.buildPanField, first8_widen8]

theorem pinField_buildPanField (s : State) : s.buildPanField.pinField = s.pinField := rfl

theorem pinField_unmask (s : State) :
    s.unmask.pinField = combine s.inp.blk8 s.inp.panField8 := by
  simp only [State.unmask, State.pinField, State.loadPF_pf, first8_widen8, panField_buildPanField]
  rfl

theorem pinField_takeBlock (s : State) : s.takeBlock.pinField = s.inp.blk8 := by
  simp [State.takeBlock, State.pinField, first8_widen8]

/-- The tail of the masked encoders delivers the two fields combined. -/
theorem finishMasked_eq (s : State) :
    s.finishMasked = s.doneWith (.block8 (combine s.pinField s.panField)) := rfl

/-- What `done` leaves depends on the registers before it only through inputs, port and source. -/
theorem finish_congr {s u : State} (o : OutputRegs) (hi : s.inp = u.inp) (hp : s.port = u.port)
    (hr : s.rng = u.rng) : s.finish o = u.doneWith o := by
  simp only [State.finish, State.doneWith, hi, hp, hr]; rfl

/-- What the body of `ENC0` delivers. -/
theorem encodeBody0_eq (s : State) :
    (s.buildPinField 0x0 0xF).buildPanField.finishMasked = s.doneWith (.block8 (combine
      (pack 0x0 s.inp.pini s.inp.pinleni 0xF) s.inp.panField8)) := by
  unfold State.finishMasked
  simp only [panField_buildPanField, pinField_buildPanField, pinField_buildPinField,
    State.buildPinField_inp]
  exact finish_congr _ (by simp) (by simp) (by simp)

theorem finishPadded1_eq (S : List Byte) (s : State) :
    s.finishPadded1 S = s.doneWith (.block8
      (pad1 (pack 0x1 s.inp.pini s.inp.pinleni 0x0) s.inp.pinleni.toNat S)) := by
  unfold State.finishPadded1
  simp only [pinField_loadPF_widen8, pinField_buildPinField, State.buildPinField_inp]
  exact finish_congr _ (by simp) (by simp) (by simp)

theorem finishPadded3_eq (r : List Byte) (s : State) :
    s.finishPadded3 r = s.doneWith (.block8 (combine
      (pad3 (pack 0x3 s.inp.pini s.inp.pinleni 0x0) s.inp.pinleni.toNat r) s.inp.panField8)) := by
  unfold State.finishPadded3 State.finishMasked
  simp only [panField_buildPanField, pinField_buildPanField, pinField_loadPF_widen8,
    pinField_buildPinField, State.loadPF_inp, State.buildPinField_inp]
  exact finish_congr _ (by simp) (by simp) (by simp)

theorem finishHalves4_eq (r : List Byte) (s : State) :
    s.finishHalves4 r = s.doneWith (.block16
      (joinHalves (pack 0x4 s.inp.pini s.inp.pinleni 0xA) r)) := by
  unfold State.finishHalves4
  simp only [State.loadPF_pf, pinField_buildPinField]
  exact finish_congr _ (by simp) (by simp) (by simp)

/-- What a decoder delivers: the digits of the field in `PF`, or the integrity failure. -/
theorem deliver_eq (s : State) (fmt : Format) (good : Bool) :
    s.deliver fmt good =
      if good then s.doneWith
        (.digits (unpack s.pinField s.inp.blockPinLen) s.inp.blockPinLen fmt.tag)
      else s.failedWith 0x05 := by
  cases good <;> rfl

/-- The field a decoder looks at: unmasked for formats 0 and 3, as it stands otherwise (spec 45_decode
R235 to R239). -/
def decodedField (inp : InputRegs) (fmt : Format) : Vector Byte 8 :=
  if fmt.usesPan then combine inp.blk8 inp.panField8 else inp.blk8

/-- The verdict of a decoder's integrity checks (spec 45_decode R232, R233, R238). -/
def integrityOk (inp : InputRegs) : Format → Bool
  | .f0 => firstByteOk inp (decodedField inp .f0) &&
      fillOk (decodedField inp .f0) inp.lengthNibble.toNat 0xF
  | .f1 => true
  | .f2 => fillOk (decodedField inp .f2) inp.lengthNibble.toNat 0xF
  | .f3 => firstByteOk inp (decodedField inp .f3) &&
      alphabetOk (decodedField inp .f3) inp.lengthNibble.toNat
  | .f4 => fillOk (decodedField inp .f4) inp.lengthNibble.toNat 0xA

/-- Everything a decoder can do: the failure its checks find, the integrity failure, or the delivered
PIN. -/
theorem decodeBlock_eq (s : State) (fmt : Format) :
    s.decodeBlock fmt =
      match decodeError s.inp fmt with
      | some c => s.failedWith c.toByte
      | none =>
        if integrityOk s.inp fmt then s.doneWith
          (.digits (unpack (decodedField s.inp fmt) s.inp.blockPinLen) s.inp.blockPinLen fmt.tag)
        else s.failedWith 0x05 := by
  unfold State.decodeBlock State.checked
  cases decodeError s.inp fmt with
  | some c => rfl
  | none =>
    cases fmt <;>
      simp only [State.decodeBody0, State.decodeBody1, State.decodeBody2, State.decodeBody3,
        State.decodeBody4, deliver_eq, pinField_unmask, pinField_takeBlock, integrityOk,
        decodedField, Format.usesPan, State.clearOutputs_inp] <;> rfl

/-- How a command that is neither `NOP` nor `CLR` ends: it fails with a code, or produces outputs, having
moved the random-byte source on only if `draws` holds. -/
def Ends (draws : Bool) (s t : State) : Prop :=
  (∃ c : Code, t = s.failedWith c.toByte) ∨
  (∃ (o : OutputRegs) (g : RngSource), t = (s.doneWith o).withRng g ∧
    (draws = false → g = s.rng) ∧ (∃ n, g.answers = s.rng.answers.drop n))

theorem ends_fail (draws : Bool) (s : State) (c : Code) : Ends draws s (s.failedWith c.toByte) :=
  .inl ⟨c, rfl⟩

theorem ends_done (draws : Bool) (s : State) (o : OutputRegs) : Ends draws s (s.doneWith o) :=
  .inr ⟨o, s.rng, rfl, fun _ => rfl, 0, rfl⟩

theorem ends_checked (draws : Bool) {s : State} {err : Option Code} {body : State → State}
    (o : OutputRegs) (hb : body s.clearOutputs = s.doneWith o) :
    Ends draws s (s.checked err body) := by
  rcases checked_cases s err body with ⟨c, _, hs⟩ | ⟨_, hs⟩
  · exact hs ▸ ends_fail draws s c
  · exact hs ▸ hb ▸ ends_done draws s o

theorem ends_decodeBlock (draws : Bool) (s : State) (fmt : Format) :
    Ends draws s (s.decodeBlock fmt) := by
  rw [decodeBlock_eq]
  split
  · exact ends_fail draws s _
  · split
    · exact ends_done draws s _
    · exact ends_fail draws s .integrity

theorem ends_checkedDraws {s t : State} {err : Option Code} {n : Nat}
    {body : List Byte → State → State} (o : List Byte → OutputRegs)
    (hb : ∀ r u, u.inp = s.inp → body r u = u.doneWith (o r))
    (h : s.checkedDraws err n body = .next t) : Ends true s t := by
  rcases checkedDraws_cases s err n body with ⟨c, _, hs⟩ | ⟨_, _, hs⟩ | ⟨r, g, _, hd, hs⟩
  · rw [hs] at h; cases h; exact ends_fail true s c
  · rw [hs] at h; cases h
  · rw [hs] at h
    have ht : t = body r (s.clearOutputs.withRng g) := (Host.Outcome.next.inj h).symm
    refine .inr ⟨o r, g, ?_, by simp, n, (drawBytes_some hd).2.2⟩
    rw [ht, hb r (s.clearOutputs.withRng g) rfl]; rfl

/-- The decoder a dispatch runs does not depend on the outputs before it. -/
theorem decodeBlock_clearOutputs (s : State) (fmt : Format) :
    s.clearOutputs.decodeBlock fmt = s.decodeBlock fmt := by
  rw [decodeBlock_eq, decodeBlock_eq]; rfl

/-- Everything a command that answers a next state can do. -/
theorem exec_next_cases {i : Instr} {s t : State} (h : exec i s = .next t) :
    (i = .nop ∧ t = s) ∨ (i = .clr ∧ t = s.zeroRegisters) ∨ Ends (mayDraw i) s t := by
  cases i with
  | nop => cases h; exact .inl ⟨rfl, rfl⟩
  | clr => cases h; exact .inr (.inl ⟨rfl, rfl⟩)
  | enc0 => cases h; exact .inr (.inr (ends_checked _ _ rfl))
  | enc1 =>
    refine .inr (.inr ?_)
    simp only [exec, execEnc1] at h
    split at h
    · exact ends_checkedDraws
        (fun r => .block8 (pad1 (pack 0x1 s.inp.pini s.inp.pinleni 0x0) s.inp.pinleni.toNat r))
        (fun r u hu => by rw [finishPadded1_eq, hu]) h
    · cases h
      exact ends_checked _
        (.block8 (pad1 (pack 0x1 s.inp.pini s.inp.pinleni 0x0) s.inp.pinleni.toNat
          (nonceSource s.inp (padCapacity s.inp.pinleni.toNat))))
        (by rw [finishPadded1_eq]; rfl)
  | enc2 => cases h; exact .inr (.inr (ends_checked _ _ rfl))
  | enc3 =>
    exact .inr (.inr (ends_checkedDraws (fun r => .block8 (combine
      (pad3 (pack 0x3 s.inp.pini s.inp.pinleni 0x0) s.inp.pinleni.toNat r) s.inp.panField8))
      (fun r u hu => by rw [finishPadded3_eq, hu]) h))
  | enc4 =>
    exact .inr (.inr (ends_checkedDraws
      (fun r => .block16 (joinHalves (pack 0x4 s.inp.pini s.inp.pinleni 0xA) r))
      (fun r u hu => by rw [finishHalves4_eq, hu]) h))
  | dec0 => cases h; exact .inr (.inr (ends_decodeBlock _ _ _))
  | dec1 => cases h; exact .inr (.inr (ends_decodeBlock _ _ _))
  | dec2 => cases h; exact .inr (.inr (ends_decodeBlock _ _ _))
  | dec3 => cases h; exact .inr (.inr (ends_decodeBlock _ _ _))
  | dec4 => cases h; exact .inr (.inr (ends_decodeBlock _ _ _))
  | getfmt =>
    refine .inr (.inr ?_)
    simp only [exec, execGetfmt] at h
    split at h
    · cases h; exact ends_fail _ s _
    · cases h; exact ends_done _ s _
  | decode =>
    refine .inr (.inr ?_)
    simp only [exec, execDecode] at h
    split at h
    · cases h; exact ends_fail _ s _
    · cases h; rw [decodeBlock_clearOutputs]; exact ends_decodeBlock _ s _
  | pack a b => cases h; exact .inr (.inr (ends_checked _ _ rfl))
  | unpack => cases h; exact .inr (.inr (ends_checked _ _ rfl))
  | drv64 => cases h; exact .inr (.inr (ends_checked _ _ rfl))
  | drv128 => cases h; exact .inr (.inr (ends_checked _ _ rfl))
  | xor =>
    refine .inr (.inr ?_)
    simp only [exec, execXor] at h
    cases h
    by_cases h8 : s.inp.blkleni = 8
    · refine ends_checked _ (.block8 (combine s.inp.blk8 (first8 s.inp.fldi))) ?_
      simp only [State.clearOutputs_inp, h8, if_true]; rfl
    · refine ends_checked _ (.block16 (combine s.inp.blki s.inp.fldi)) ?_
      simp only [State.clearOutputs_inp, h8, if_false]; rfl

end Sys2Proof.Machine
end

