-- ==== Sys2Proof/Laws/Fields.lean ====
section
/-! SUPPORT. The fields the commands build, nibble by nibble: packer, combiner, padding, PAN fields. -/

namespace Sys2Proof.Machine

/-- The masked length is the low nibble. -/
theorem maskLen_eq (len : Byte) : maskLen len = len.toNat % 16 := by
  simp only [maskLen, BitVec.toNat_and]
  exact Nat.and_two_pow_sub_one_eq_mod len.toNat 4

theorem loNib_eq (len : Byte) : loNib len = BitVec.ofNat 4 (len.toNat % 16) := by
  revert len; decide

/-- The nibble map of `pack` (spec 40_packer R130). -/
theorem nib_pack (fmt fill : Nibble) (d : Vector Nibble 12) (len : Byte) (k : Nat) (h : k < 16) :
    nib (pack fmt d len fill) k = fieldNibble fmt d (len.toNat % 16) (fun _ => fill) k := by
  rw [pack, nib_ofNibs _ _ (by omega)]
  unfold fieldNibble
  by_cases h0 : k = 0
  · simp [h0]
  · by_cases h1 : k = 1
    · simp [h1, loNib_eq]
    · have : k - 2 < maskLen len ↔ k < 2 + len.toNat % 16 := by rw [maskLen_eq]; omega
      simp only [h0, h1, if_false, this]

theorem byteAt_combine {n : Nat} (a b : Vector Byte n) (i : Nat) :
    byteAt (combine a b) i = byteAt a i ^^^ byteAt b i := by
  by_cases h : i < n
  · rw [combine, byteAt_ofFn _ _ h, byteAt_eq_getElem a i h, byteAt_eq_getElem b i h]; rfl
  · rw [byteAt_eq_zero _ i (by omega), byteAt_eq_zero a i (by omega),
      byteAt_eq_zero b i (by omega)]; rfl

/-- The combiner works nibble by nibble (spec 43_combiner R190). -/
theorem nib_combine {n : Nat} (a b : Vector Byte n) (k : Nat) :
    nib (combine a b) k = nib a k ^^^ nib b k := by
  unfold nib
  split <;> simp only [byteAt_combine, hiNib_xor, loNib_xor]

/-- `pad3` keeps byte 0 and the digits and fills the rest (spec 42_padding R175). -/
theorem nib_pad3 (F : Vector Byte 8) (L : Nat) (r : List Byte) (k : Nat) (h : k < 16) :
    nib (pad3 F L r) k = if k < 2 + L then nib F k else padnib (r.getD (k - (2 + L)) 0) := by
  rw [pad3, nib_ofNibs _ _ (by omega)]

theorem keepHigh (x y : Byte) : hiNib ((x &&& 0xF0) ||| (y &&& 0x0F)) = hiNib x := by
  apply BitVec.eq_of_getLsbD_eq
  intro i hi
  have : i = 0 ∨ i = 1 ∨ i = 2 ∨ i = 3 := by omega
  rcases this with rfl | rfl | rfl | rfl <;> simp [hiNib]

theorem takeLow (x y : Byte) : loNib ((x &&& 0xF0) ||| (y &&& 0x0F)) = loNib y := by
  apply BitVec.eq_of_getLsbD_eq
  intro i hi
  have : i = 0 ∨ i = 1 ∨ i = 2 ∨ i = 3 := by omega
  rcases this with rfl | rfl | rfl | rfl <;> simp [loNib]

/-- `pad1` keeps byte 0 and the digits, and takes every nibble behind them from the padding bytes; of a
byte shared with the last digit only the low nibble (spec 42_padding R172). -/
theorem nib_pad1 (F : Vector Byte 8) (L : Nat) (S : List Byte) (k : Nat) (h : k < 16) :
    nib (pad1 F L S) k =
      if k < 2 + L then nib F k else paddingNibble (fun j => S.getD j 0) L k := by
  have hf : firstPadByte L = 1 + L / 2 := by simp [firstPadByte, Nat.shiftRight_eq_div_pow]
  revert h
  refine nibble_cases (P := fun k => k < 16 → nib (pad1 F L S) k =
    if k < 2 + L then nib F k else paddingNibble (fun j => S.getD j 0) L k) k ?_ ?_
  · intro i _ h
    rw [nib_even, nib_even, pad1, byteAt_ofFn _ _ (by omega : i < 8), hf]
    simp only [paddingNibble]
    by_cases h1 : i < 1 + L / 2
    · rw [if_pos h1, if_pos (by omega)]
    · by_cases h2 : i = 1 + L / 2 ∧ L % 2 = 1
      · rw [if_neg h1, if_pos h2, if_pos (by omega), keepHigh]
      · have hk : 2 * i / 2 = i := by omega
        rw [if_neg h1, if_neg h2, if_neg (by omega), if_pos (by omega), hk]
  · intro i _ h
    rw [nib_odd, nib_odd, pad1, byteAt_ofFn _ _ (by omega : i < 8), hf]
    simp only [paddingNibble]
    have hk : (2 * i + 1) / 2 = i := by omega
    by_cases h1 : i < 1 + L / 2
    · rw [if_pos h1, if_pos (by omega)]
    · by_cases h2 : i = 1 + L / 2 ∧ L % 2 = 1
      · have hz : i - (1 + L / 2) = 0 := by omega
        rw [if_neg h1, if_pos h2, if_neg (by omega), if_neg (by omega), takeLow, hk, hz]
      · rw [if_neg h1, if_neg h2, if_neg (by omega), if_neg (by omega), hk]

theorem byteAt_joinHalves (F : Vector Byte 8) (r : List Byte) (i : Nat) (h : i < 16) :
    byteAt (joinHalves F r) i = if i < 8 then byteAt F i else r.getD (i - 8) 0 := by
  rw [joinHalves, byteAt_ofFn _ _ h]

/-- The fill check says that every nibble from `2 + L` to 15 is the fill digit (spec 45_decode R233). -/
theorem fillOk_iff (W : Vector Byte 8) (L : Nat) (fill : Nibble) :
    fillOk W L fill = true ↔ ∀ k, 2 + L ≤ k → k < 16 → nib W k = fill := by
  simp [fillOk, everyNib_iff]

/-- The alphabet check of format 3 (spec 45_decode R238). -/
theorem alphabetOk_iff (U : Vector Byte 8) (L : Nat) :
    alphabetOk U L = true ↔ (∀ k, 2 ≤ k → k < 2 + L → (nib U k).toNat ≤ 9) ∧
      (∀ k, 2 + L ≤ k → k < 16 → 10 ≤ (nib U k).toNat) := by
  simp [alphabetOk, everyNib_iff]

/-- The digits `unpack` reads (spec 40_packer R132). -/
theorem unpack_getD (X : Vector Byte 8) (len : Byte) (k : Nat) :
    (unpack X len).getD k 0 = if k < maskLen len then nib X (2 + k) else 0 := by
  by_cases h : k < maskLen len <;> simp [unpack, List.getD, h]

/-! ### The 8-byte PAN field -/

/-- The non-pad nibbles among the first `i` PAN nibbles, rightmost first. -/
def digitsBelow (P : Vector Byte 10) (i : Nat) : List Nibble :=
  (((List.range i).map (nib P)).filter (· != 0xF)).reverse

theorem digitsBelow_succ (P : Vector Byte 10) (i : Nat) :
    digitsBelow P (i + 1) =
      if nib P i = 0xF then digitsBelow P i else nib P i :: digitsBelow P i := by
  by_cases h : nib P i = 0xF
  · simp [digitsBelow, List.range_succ, h]
  · have hb : (nib P i != 0xF) = true := bne_iff_ne.mpr h
    simp only [if_neg h, digitsBelow, List.range_succ, List.map_append, List.filter_append,
      List.reverse_append, List.map_cons, List.map_nil, List.filter_cons, hb, if_true,
      List.filter_nil]
    rfl

/-- The scan after the check digit: position `pos - j` takes the j-th digit found, down to position 4;
the rest of the field stays. -/
theorem nib_scan64 (P : Vector Byte 10) (i : Nat) :
    ∀ (pos : Nat) (N : Vector Byte 8) (k : Nat), pos < 16 → k < 16 →
      nib (scan64 P i true pos N) k =
        if 4 ≤ k ∧ k ≤ pos then (digitsBelow P i).getD (pos - k) (nib N k) else nib N k := by
  induction i with
  | zero => intro pos N k _ _; simp [scan64, digitsBelow]
  | succ i ih =>
    intro pos N k hp hk
    rw [scan64, digitsBelow_succ]
    by_cases hf : nib P i = 0xF
    · rw [if_pos hf, if_pos hf, ih pos N k hp hk]
    · rw [if_neg hf, if_neg hf, if_neg (by simp)]
      by_cases h4 : pos < 4
      · rw [if_pos h4, if_neg (by omega)]
      · rw [if_neg h4, ih (pos - 1) _ k (by omega) hk]
        by_cases hkp : k = pos
        · subst hkp
          rw [if_neg (by omega), if_pos (by omega), nib_setnib_same _ _ _ (by omega)]
          simp
        · rw [nib_setnib_other _ _ _ _ hkp]
          by_cases hr : 4 ≤ k ∧ k ≤ pos - 1
          · have : pos - k = (pos - 1 - k) + 1 := by omega
            rw [if_pos hr, if_pos (by omega), this]
            simp
          · rw [if_neg hr, if_neg (by omega)]

theorem nib_zeros {n : Nat} (k : Nat) : nib (Vector.replicate n (0 : Byte)) k = 0 := by
  have h : ∀ i, byteAt (Vector.replicate n (0 : Byte)) i = 0 := by
    intro i
    by_cases hi : i < n
    · rw [byteAt_eq_getElem _ _ hi]; simp
    · exact byteAt_eq_zero _ _ (by omega)
  unfold nib
  simp only [h]
  split <;> rfl

theorem getD_tail (l : List Nibble) (j : Nat) : l.tail.getD j 0 = l.getD (j + 1) 0 := by
  cases l <;> simp

/-- The scan from its start: the first non-pad nibble is the check digit and is dropped. -/
theorem nib_scan64_start (P : Vector Byte 10) (i k : Nat) (hk : k < 16) :
    nib (scan64 P i false 15 (Vector.replicate 8 0)) k =
      if 4 ≤ k then (digitsBelow P i).getD (16 - k) 0 else 0 := by
  induction i with
  | zero =>
    rw [scan64, nib_zeros]
    simp [digitsBelow]
  | succ i ih =>
    rw [scan64, digitsBelow_succ]
    by_cases hf : nib P i = 0xF
    · rw [if_pos hf, if_pos hf, ih]
    · rw [if_neg hf, if_neg hf, if_pos rfl, nib_scan64 P i 15 _ k (by omega) hk, nib_zeros]
      by_cases h4 : 4 ≤ k
      · have : 16 - k = (15 - k) + 1 := by omega
        rw [if_pos ⟨h4, by omega⟩, if_pos h4, this]
        simp
      · rw [if_neg (by omega), if_neg h4]

/-- The nibble map of the 8-byte PAN field (spec 41_pan_field R151). -/
theorem nib_derive64 (P : Vector Byte 10) (n k : Nat) (hk : k < 16) :
    nib (derive64 P n) k = panNibble P n k := by
  rw [derive64, nib_scan64_start P _ k hk, panNibble]
  by_cases h4 : 4 ≤ k
  · rw [if_pos h4, if_pos ⟨h4, hk⟩]; rfl
  · rw [if_neg h4, if_neg (by omega)]

/-! ### The digit count of the 16-byte PAN field -/

theorem digitCount_le (P : Vector Byte 10) (i : Nat) : digitCount P i ≤ i := by
  induction i with
  | zero => simp [digitCount]
  | succ i ih =>
    rw [digitCount]
    split <;> omega

/-- From the digit count on there are only pad nibbles (spec 41_pan_field R153). -/
theorem pad_of_digitCount_le (P : Vector Byte 10) (i : Nat) :
    ∀ j, digitCount P i ≤ j → j < i → nib P j = 0xF := by
  induction i with
  | zero => intro j _ h; omega
  | succ i ih =>
    intro j hc hj
    rw [digitCount] at hc
    split at hc
    · rename_i hf
      by_cases hji : j = i
      · exact hji ▸ hf
      · exact ih j hc (by omega)
    · omega

/-- The last digit is no pad nibble. -/
theorem digit_before_digitCount (P : Vector Byte 10) (i : Nat) (h : 0 < digitCount P i) :
    nib P (digitCount P i - 1) ≠ 0xF := by
  induction i with
  | zero => simp [digitCount] at h
  | succ i ih =>
    rw [digitCount] at h ⊢
    split at h
    · rename_i hf
      rw [if_pos hf]; exact ih h
    · rename_i hf
      rw [if_neg hf]; simpa using hf

/-- The nibble map of the 16-byte PAN field (spec 41_pan_field R153). -/
theorem nib_derive128 (P : Vector Byte 10) (n k : Nat) (hk : k < 32) :
    nib (derive128 P n) k =
      if digitCount P (2 * n) ≤ 12 then
        if 13 - digitCount P (2 * n) ≤ k ∧ k ≤ 12 then nib P (k - (13 - digitCount P (2 * n))) else 0
      else if k = 0 then BitVec.ofNat 4 (digitCount P (2 * n) - 12)
      else if k ≤ digitCount P (2 * n) then nib P (k - 1) else 0 := by
  unfold derive128
  simp only
  split
  · rw [nib_ofNibs _ _ (by omega)]
  · rw [nib_ofNibs _ _ (by omega)]

end Sys2Proof.Machine
end

