-- ==== Sys2Proof/Laws/Checks.lean ====
section
/-! SUPPORT. What each validity check answers, once, in terms of the numbers in the registers, and the
delivered PIN as the statements describe it. -/

namespace Sys2Proof.Machine

theorem eq_zero_iff_toNat {n : Nat} (x : BitVec n) : x = 0 ↔ x.toNat = 0 := by
  constructor
  · rintro rfl; simp
  · intro h; apply BitVec.eq_of_toNat_eq; simpa using h

/-- The PAN operand is no argument when it is empty or longer than the register file. -/
theorem panArgBad_iff (inp : InputRegs) :
    panArgBad inp = true ↔ inp.panlen.toNat = 0 ∨ 10 < inp.panlen.toNat := by
  unfold panArgBad
  simp only [Bool.or_eq_true, beq_iff_eq, decide_eq_true_eq, Config.panMax, gt_iff_lt]
  rw [← eq_zero_iff_toNat inp.panlen]

/-- Checks (1) to (3) of the encoders (spec 44_encode R200). -/
theorem encodeError_eq (inp : InputRegs) (b : Bool) (P : Prop) [Decidable P] (hb : b = true ↔ P) :
    encodeError inp b =
      if inp.pinleni.toNat = 0 ∨ P then some .arg
      else if inp.pinleni.toNat < 4 ∨ 12 < inp.pinleni.toNat then some .pinlen
      else none := by
  unfold encodeError pinLenBad
  simp only [Bool.or_eq_true, beq_iff_eq, decide_eq_true_eq, Config.pinMax, Config.pinMin,
    gt_iff_lt, hb]
  by_cases h1 : inp.pinleni = 0 ∨ P <;>
    by_cases h2 : inp.pinleni.toNat < 4 ∨ 12 < inp.pinleni.toNat <;>
    simp only [← eq_zero_iff_toNat inp.pinleni, h1, h2, if_true, if_false]

/-- No encoder check answers `ST_OK`. -/
theorem encodeError_ne_ok (inp : InputRegs) (b : Bool) : encodeError inp b ≠ some .ok := by
  unfold encodeError
  split <;> [simp; split <;> simp]

theorem encode1Error_ne_ok (inp : InputRegs) : encode1Error inp ≠ some .ok := by
  unfold encode1Error
  split
  · rename_i h; intro hh; exact encodeError_ne_ok _ _ (h.trans hh)
  · split <;> simp

theorem controlNibble_eq (inp : InputRegs) : inp.controlNibble = nib inp.blki 0 :=
  (nib_even inp.blki 0).symm

theorem lengthNibble_eq (inp : InputRegs) : inp.lengthNibble = nib inp.blki 1 :=
  (nib_odd inp.blki 0).symm

/-- Checks (1) to (4) of the decoders (spec 45_decode R230). -/
theorem decodeError_eq (inp : InputRegs) (f : Format) (P : Prop) [Decidable P]
    (hP : (f.usesPan && panArgBad inp) = true ↔ P) :
    decodeError inp f =
      if inp.blkleni = 0 ∨ P then some .arg
      else if inp.blkleni ≠ f.size then some .size
      else if nib inp.blki 0 ≠ f.tag then some .format
      else if (nib inp.blki 1).toNat < 4 ∨ 12 < (nib inp.blki 1).toNat then some .pinlen
      else none := by
  unfold decodeError pinLenBad
  rw [controlNibble_eq, lengthNibble_eq]
  simp only [Bool.or_eq_true, beq_iff_eq, bne_iff_ne, decide_eq_true_eq, Config.pinMax,
    Config.pinMin, gt_iff_lt, hP]

/-- Format identification (spec 46_dispatch R260). -/
theorem identify_eq (inp : InputRegs) :
    inp.identify =
      if inp.blkleni.toNat = 0 then .error .arg
      else if inp.blkleni.toNat ≠ 8 ∧ inp.blkleni.toNat ≠ 16 then .error .size
      else if inp.blkleni.toNat = 8 then
        if nib inp.blki 0 = 0 then .ok .f0
        else if nib inp.blki 0 = 1 then .ok .f1
        else if nib inp.blki 0 = 2 then .ok .f2
        else if nib inp.blki 0 = 3 then .ok .f3
        else .error .format
      else if nib inp.blki 0 = 4 then .ok .f4
      else .error .format := by
  unfold InputRegs.identify ident
  have hn : hiNib (byteAt inp.blki 0) = nib inp.blki 0 := (nib_even _ 0).symm
  have e8 : inp.blkleni.toNat = 8 ↔ inp.blkleni = 8 :=
    ⟨fun h => BitVec.eq_of_toNat_eq h, fun h => by rw [h]; rfl⟩
  have e16 : inp.blkleni.toNat = 16 ↔ inp.blkleni = 16 :=
    ⟨fun h => BitVec.eq_of_toNat_eq h, fun h => by rw [h]; rfl⟩
  simp only [hn, ne_eq, e8, e16, ← eq_zero_iff_toNat inp.blkleni]

/-- The length check of `PACK` and `UNPACK` (spec 40_packer R134, R135). -/
theorem packError_eq (inp : InputRegs) :
    packError inp = if 12 < inp.pinleni.toNat % 16 then some .pinlen else none := by
  unfold packError
  rw [maskLen_eq]

/-- The digits a command delivers, as the statements describe them (spec 45_decode R234). -/
theorem digits_eq_deliveredPin {d : List Nibble} {d' : Nat → Nibble} {l : Byte} {L : Nat}
    {f : Nibble} (hl : l = BitVec.ofNat 8 L)
    (hd : ∀ k, k < 12 → d.getD k 0 = if k < L then d' k else 0) :
    OutputRegs.digits d l f = deliveredPin d' L f := by
  unfold OutputRegs.digits deliveredPin
  rw [hl]
  have : (Vector.ofFn fun k : Fin 12 => d.getD k.val 0) =
      Vector.ofFn fun k : Fin 12 => if k.val < L then d' k.val else 0 := by
    congr 1; funext k; exact hd k k.isLt
  rw [this]

/-- A delivered PIN depends on its digits below the length alone. -/
theorem deliveredPin_congr {d d' : Nat → Nibble} {L : Nat} {f : Nibble}
    (h : ∀ k, k < L → k < 12 → d k = d' k) : deliveredPin d L f = deliveredPin d' L f := by
  unfold deliveredPin
  have : (Vector.ofFn fun k : Fin 12 => if k.val < L then d k.val else 0) =
      Vector.ofFn fun k : Fin 12 => if k.val < L then d' k.val else 0 := by
    congr 1; funext k; split
    · rename_i hk; exact h k hk k.isLt
    · rfl
  rw [this]

end Sys2Proof.Machine
end

