-- ==== Sys2Proof/Laws/Port.lean ====
section
/-! SUPPORT. Laws of the index map, of the step's choice of a port operation, and of a command word's
fields. -/

namespace Sys2Proof.Machine

/-- A register is found at its own index (spec 10_state R49). -/
theorem regAt_index (r : Reg) : regAt r.index = some r := by
  cases r with
  | pini k => revert k; decide
  | pan k => revert k; decide
  | nonce k => revert k; decide
  | blki k => revert k; decide
  | fldi k => revert k; decide
  | pino k => revert k; decide
  | blko k => revert k; decide
  | fldo k => revert k; decide
  | _ => rfl

theorem regAt_sound :
    ∀ i : Index, (match regAt i with | some r => decide (r.index = i) | none => true) = true := by
  decide

/-- The register found at an index has that index. -/
theorem index_of_regAt {i : Index} {r : Reg} (h : regAt i = some r) : r.index = i := by
  have := regAt_sound i
  rw [h] at this
  simpa using this

/-- An index is unmapped exactly when no register has it (20_memory R77). -/
theorem regAt_eq_none_iff (i : Index) : regAt i = none ↔ ∀ r : Reg, i ≠ r.index := by
  constructor
  · intro h r hi
    rw [hi, regAt_index] at h
    cases h
  · intro h
    cases hr : regAt i with
    | none => rfl
    | some r => exact absurd (index_of_regAt hr).symm (h r)

/-- A step takes the first pending port operation (20_memory R81). -/
theorem step_of_script {s : State} {op : PortOp} {rest : List PortOp}
    (h : s.port.script = op :: rest) : step s = portOp exec op (s.withScript rest) := by
  simp [step, portStep, h]

/-- The `CMD` write of a word runs the word. -/
theorem hostWrite_cmd (ex : Instr → State → Result) (v : Word) (s : State) :
    hostWrite ex 0x00 v s = runWord ex v s := by
  rw [hostWrite, if_pos (by decide)]

/-- A command word is made of its three fields (30_encoding R100). -/
theorem commandWord_fields (cw : Word) :
    commandWord (opcField cw) (aField cw) (bField cw) = cw := by
  apply BitVec.eq_of_getLsbD_eq
  intro i hi
  simp only [commandWord, opcField, aField, bField, BitVec.getLsbD_append,
    BitVec.getLsbD_extractLsb']
  have : i = 0 ∨ i = 1 ∨ i = 2 ∨ i = 3 ∨ i = 4 ∨ i = 5 ∨ i = 6 ∨ i = 7 ∨ i = 8 ∨ i = 9 ∨ i = 10 ∨
    i = 11 ∨ i = 12 ∨ i = 13 ∨ i = 14 ∨ i = 15 := by omega
  rcases this with rfl | rfl | rfl | rfl | rfl | rfl | rfl | rfl | rfl | rfl | rfl | rfl | rfl |
    rfl | rfl | rfl <;> simp

end Sys2Proof.Machine
end

