-- ==== Sys2Proof/Laws/PerInstr.lean ====
section
/-! SUPPORT. The statements made per instruction: one lemma per constructor of `Instr`. -/

namespace Sys2Proof.Laws

/-- The word of a command is selected by the command's own row of spec 30_encoding R104: under the row's
mask it is the row's match. -/
def EncodesRow.Statement (i : Instr) : Prop := encode i &&& (tableRow i).2 = (tableRow i).1

theorem EncodesRow.nop : EncodesRow.Statement .nop := rfl
theorem EncodesRow.clr : EncodesRow.Statement .clr := rfl
theorem EncodesRow.enc0 : EncodesRow.Statement .enc0 := rfl
theorem EncodesRow.enc1 : EncodesRow.Statement .enc1 := rfl
theorem EncodesRow.enc2 : EncodesRow.Statement .enc2 := rfl
theorem EncodesRow.enc3 : EncodesRow.Statement .enc3 := rfl
theorem EncodesRow.enc4 : EncodesRow.Statement .enc4 := rfl
theorem EncodesRow.dec0 : EncodesRow.Statement .dec0 := rfl
theorem EncodesRow.dec1 : EncodesRow.Statement .dec1 := rfl
theorem EncodesRow.dec2 : EncodesRow.Statement .dec2 := rfl
theorem EncodesRow.dec3 : EncodesRow.Statement .dec3 := rfl
theorem EncodesRow.dec4 : EncodesRow.Statement .dec4 := rfl
theorem EncodesRow.getfmt : EncodesRow.Statement .getfmt := rfl
theorem EncodesRow.decode : EncodesRow.Statement .decode := rfl
theorem EncodesRow.pack (a b : Nibble) : EncodesRow.Statement (.pack a b) :=
  (by decide : ∀ a b : Nibble, encode (.pack a b) &&& 0xFF00 = 0x4000) a b
theorem EncodesRow.unpack : EncodesRow.Statement .unpack := rfl
theorem EncodesRow.drv64 : EncodesRow.Statement .drv64 := rfl
theorem EncodesRow.drv128 : EncodesRow.Statement .drv128 := rfl
theorem EncodesRow.xor : EncodesRow.Statement .xor := rfl

end Sys2Proof.Laws
end

