-- ==== Sys2Proof/Tests/Slice0.lean ====
section
/-! SUPPORT. Tests of single commands (expected values from spec 95_test_vectors and from the examples
of the rules), and for each statement with hypotheses a state and operands that meet them, at the
boundaries of its clauses. -/

namespace Sys2Proof.Tests

open Sys2Proof.Machine

/-! ### Helpers -/

/-- An array from the front of a list. -/
def arr {w : Nat} (n : Nat) (l : List (BitVec w)) : Vector (BitVec w) n :=
  Vector.ofFn fun i : Fin n => l.getD i.val 0

/-- The reset state with operands loaded as `LDPIN`, `LDPAN`, `LDNONCE`, `LDBLK` and `LDFLD` do. -/
def operands (pin : List Nibble) (pan nonce blk fld : List Byte) : State :=
  { State.reset with inp := {
      pini := arr 12 pin, pinleni := BitVec.ofNat 8 pin.length
      pan := arr 10 pan, panlen := BitVec.ofNat 8 pan.length
      nonce := arr 8 nonce, noncelen := BitVec.ofNat 8 nonce.length
      blki := arr 16 blk, blkleni := BitVec.ofNat 8 blk.length
      fldi := arr 16 fld } }

/-- The same state with the given length registers. -/
def lens (pinlen panlen noncelen blklen : Byte) (s : State) : State :=
  { s with inp := { s.inp with
      pinleni := pinlen, panlen := panlen, noncelen := noncelen, blkleni := blklen } }

/-- The same state with the random-byte source's answers. -/
def answers (l : List (Option Byte)) (s : State) : State :=
  { s with rng := { answers := l, drawn := 0 } }

/-- The state of an outcome; the reset state where there is none. -/
def stateOf : Result → State
  | .next t => t
  | .fault _ => .reset
  | .refused _ => .reset

/-- Whether an outcome is a next state. -/
def isNext : Result → Bool
  | .next _ => true
  | .fault _ => false
  | .refused _ => false

/-- The result code a command leaves; 0xFF where there is no next state. -/
def code (r : Result) : Byte := if isNext r then (stateOf r).out.status else 0xFF

theorem next_of_isNext {r : Result} (h : isNext r = true) : r = .next (stateOf r) := by
  cases r <;> first | rfl | cases h

def isRandomSourceSilent : Result → Bool
  | .fault .randomSourceSilent => true
  | .next _ => false
  | .refused _ => false

theorem fault_of_isRandomSourceSilent {r : Result} (h : isRandomSourceSilent r = true) :
    r = .fault .randomSourceSilent := by
  cases r with
  | fault f => cases f; rfl
  | next _ => cases h
  | refused _ => cases h

/-- The block that a command produced, moved to the block operand (`MVBLK`), with the PAN of `s`. -/
def moved (s t : State) : State :=
  { s with inp := { s.inp with blki := t.out.blko, blkleni := t.out.blkleno } }

/-- PAN 40 12 34 56 78 90 9F (spec 41_pan_field R157). -/
def pan13 : List Byte := [0x40, 0x12, 0x34, 0x56, 0x78, 0x90, 0x9F]

/-- PIN 1234 with that PAN (44_encode R203). -/
def pin1234 : State := operands [1, 2, 3, 4] pan13 [] [] []

/-! ### Decoding (words of 30_encoding R100, R104) -/

theorem test_decode_control :
    decodeTableWord 16 0x0000 = some .nop ∧ decodeTableWord 16 0x0100 = some .clr := by decide

theorem test_decode_encoders :
    decodeTableWord 16 0b0001000000000000 = some .enc0 ∧
    decodeTableWord 16 0b0001000100000000 = some .enc1 ∧
    decodeTableWord 16 0b0001001000000000 = some .enc2 ∧
    decodeTableWord 16 0b0001001100000000 = some .enc3 ∧
    decodeTableWord 16 0b0001010000000000 = some .enc4 := by decide

theorem test_decode_decoders :
    decodeTableWord 16 0b0010000000000000 = some .dec0 ∧
    decodeTableWord 16 0b0010000100000000 = some .dec1 ∧
    decodeTableWord 16 0b0010001000000000 = some .dec2 ∧
    decodeTableWord 16 0b0010001100000000 = some .dec3 ∧
    decodeTableWord 16 0b0010010000000000 = some .dec4 := by decide

theorem test_decode_dispatch :
    decodeTableWord 16 0b0011000000000000 = some .getfmt ∧
    decodeTableWord 16 0b0011000100000000 = some .decode := by decide

theorem test_decode_primitives :
    decodeTableWord 16 0b0100000000101111 = some (.pack 2 15) ∧
    decodeTableWord 16 0b0100000100000000 = some .unpack ∧
    decodeTableWord 16 0b0100001000000000 = some .drv64 ∧
    decodeTableWord 16 0b0100001100000000 = some .drv128 ∧
    decodeTableWord 16 0b0100010000000000 = some .xor := by decide

/-- The ends of the unassigned ranges of R106, and format-Z opcodes with a non-zero low byte. -/
theorem test_decode_illegal :
    ([0x0200, 0x0F00, 0x1500, 0x1F00, 0x2500, 0x2F00, 0x3200, 0x3F00, 0x4500, 0xFF00, 0x0001,
      0x00FF, 0x1010, 0x4101, 0x44FF] : List Nat).all
      (fun w => decodeTableWord 16 w == none) = true := by decide

/-- A word placed for the next step is run by it (44_encode R205's example). -/
theorem test_step_runs_placed_word :
    (stateOf (step ((operands [3, 4, 5, 6, 7] [] [] [] []).withFetchWord 16 0x1200))).out.blko =
      arr 16 [0x25, 0x34, 0x56, 0x7F, 0xFF, 0xFF, 0xFF, 0xFF] := by decide

/-! ### WellFormed: each bound of 30_encoding R110 refused one beyond it

`Instr.wellFormed` refuses no term: the type of the immediates already keeps the one bound there is
(R109). -/

theorem test_wf_ldpin :
    scriptWellFormed [.ldpin (List.replicate 12 0)] = true ∧
    scriptWellFormed [.ldpin (List.replicate 13 0)] = false := by decide

theorem test_wf_ldpan :
    scriptWellFormed [.ldpan (List.replicate 10 0)] = true ∧
    scriptWellFormed [.ldpan (List.replicate 11 0)] = false := by decide

theorem test_wf_ldnonce :
    scriptWellFormed [.ldnonce (List.replicate 8 0)] = true ∧
    scriptWellFormed [.ldnonce (List.replicate 9 0)] = false := by decide

theorem test_wf_ldblk :
    scriptWellFormed [.ldblk (List.replicate 16 0)] = true ∧
    scriptWellFormed [.ldblk (List.replicate 17 0)] = false := by decide

theorem test_wf_ldfld :
    scriptWellFormed [.ldfld (List.replicate 16 0)] = true ∧
    scriptWellFormed [.ldfld (List.replicate 17 0)] = false := by decide

/-- The expansion of `LDPIN` (R110). -/
theorem test_expand_ldpin :
    Stmt.expand (.ldpin [1, 2]) = [.write 0x08 2, .write 0x10 1, .write 0x11 2] := by decide

/-- 30_encoding R110: loading a script with an `RNG` behind a command leaves the source as it is, and the
`RNG` in its turn supplies its bytes. -/
theorem test_rng_in_its_turn :
    (pin1234.load [.cmd .enc4, .rng [0x80, 0x81]]).port.script =
      [.write 0x00 0x1400, .supply [0x80, 0x81]] ∧
    (pin1234.load [.cmd .enc4, .rng [0x80, 0x81]]).rng.answers = [] ∧
    (stateOf (step (pin1234.load [.rng [0x80, 0x81]]))).rng.answers = [some 0x80, some 0x81] := by
  decide

/-! ### One test per command: the examples of the rules -/

theorem test_enc0 :
    (stateOf (exec .enc0 pin1234)).out.blko =
      arr 16 [0x04, 0x12, 0x74, 0xED, 0xCB, 0xA9, 0x87, 0x6F] := by decide

/-- 44_encode R204's second example: odd length, the nonce read from its end. -/
theorem test_enc1 :
    (stateOf (exec .enc1 (operands [1, 2, 3, 4, 5] [] [0x11, 0x22, 0x33, 0x44, 0x55] [] []))).out.blko
      = arr 16 [0x15, 0x12, 0x34, 0x55, 0x44, 0x33, 0x22, 0x11] := by decide

theorem test_enc2 :
    (stateOf (exec .enc2 (operands [3, 4, 5, 6, 7] [] [] [] []))).out.blko =
      arr 16 [0x25, 0x34, 0x56, 0x7F, 0xFF, 0xFF, 0xFF, 0xFF] := by decide

/-- 42_padding R173: the ends of the ranges of `padnib`, unmasked by a PAN of zero field. -/
theorem test_enc3 :
    (stateOf (exec .enc3 (answers ([0x00, 0x2A, 0x2B, 0x55, 0x56, 0x7F, 0x80, 0xAA, 0xD5, 0xD6].map some)
      (operands [1, 2, 3, 4] [0xFF] [] [] [])))).out.blko =
      arr 16 [0x34, 0x12, 0x34, 0xAA, 0xBB, 0xCC, 0xDD, 0xEF] := by decide

theorem test_enc4 :
    (stateOf (exec .enc4 (answers ([0x80, 0x81, 0x82, 0x83, 0x84, 0x85, 0x86, 0x87].map some)
      pin1234))).out.blko =
      arr 16 [0x44, 0x12, 0x34, 0xAA, 0xAA, 0xAA, 0xAA, 0xAA, 0x80, 0x81, 0x82, 0x83, 0x84, 0x85,
        0x86, 0x87] := by decide

theorem test_dec0 :
    (stateOf (exec .dec0 (operands [] pan13 []
      [0x04, 0x12, 0x74, 0xED, 0xCB, 0xA9, 0x87, 0x6F] []))).out.pino = arr 12 [1, 2, 3, 4] := by
  decide

theorem test_dec1 :
    (stateOf (exec .dec1 (operands [] [] []
      [0x15, 0x12, 0x34, 0x55, 0x44, 0x33, 0x22, 0x11] []))).out.pino = arr 12 [1, 2, 3, 4, 5] := by
  decide

theorem test_dec2 :
    (stateOf (exec .dec2 (operands [] [] []
      [0x25, 0x34, 0x56, 0x7F, 0xFF, 0xFF, 0xFF, 0xFF] []))).out.pino = arr 12 [3, 4, 5, 6, 7] := by
  decide

theorem test_dec3 :
    (stateOf (exec .dec3 (operands [] pan13 []
      [0x34, 0x12, 0x74, 0xB8, 0x8F, 0x9A, 0xA5, 0x7E] []))).out.pino = arr 12 [1, 2, 3, 4] := by
  decide

theorem test_dec4 :
    (stateOf (exec .dec4 (operands [] [] []
      [0x44, 0x12, 0x34, 0xAA, 0xAA, 0xAA, 0xAA, 0xAA, 1, 2, 3, 4, 5, 6, 7, 8] []))).out.pino =
      arr 12 [1, 2, 3, 4] := by decide

theorem test_decode :
    (stateOf (exec .decode (operands [] [] []
      [0x25, 0x34, 0x56, 0x7F, 0xFF, 0xFF, 0xFF, 0xFF] []))).out.fmto = 2 := by decide

theorem test_pack :
    (stateOf (exec (.pack 2 15) (lens 0x15 0 0 0 (operands [3, 4, 5, 6, 7] [] [] [] [])))).out.blko =
      arr 16 [0x25, 0x34, 0x56, 0x7F, 0xFF, 0xFF, 0xFF, 0xFF] := by decide

theorem test_unpack :
    (stateOf (exec .unpack (lens 5 0 0 0 (operands [] [] []
      [0x00, 0x34, 0x56, 0x7F, 0xFF, 0xFF, 0xFF, 0xFF] [])))).out.pino =
      arr 12 [3, 4, 5, 6, 7] := by decide

theorem test_drv64 :
    (stateOf (exec .drv64 (operands [] pan13 [] [] []))).out.fldo =
      arr 16 [0x00, 0x00, 0x40, 0x12, 0x34, 0x56, 0x78, 0x90] := by decide

/-- Both examples of 41_pan_field R156: 13 digits and 8 digits. -/
theorem test_drv128 :
    (stateOf (exec .drv128 (operands [] pan13 [] [] []))).out.fldo =
      arr 16 [0x14, 0x01, 0x23, 0x45, 0x67, 0x89, 0x09] ∧
    (stateOf (exec .drv128 (operands [] [0x12, 0x34, 0x56, 0x78] [] [] []))).out.fldo =
      arr 16 [0x00, 0x00, 0x01, 0x23, 0x45, 0x67, 0x80] := by decide

theorem test_xor :
    (stateOf (exec .xor (operands [] [] [] [0x04, 0x12, 0x34, 0xFF, 0xFF, 0xFF, 0xFF, 0xFF]
      [0x00, 0x00, 0x40, 0x12, 0x34, 0x56, 0x78, 0x90]))).out.blko =
      arr 16 [0x04, 0x12, 0x74, 0xED, 0xCB, 0xA9, 0x87, 0x6F] := by decide

/-! ### Witnesses: hypotheses met, each clause at its boundary -/

theorem witness_EncodedCommandDecodesBack :
    (Instr.pack 15 15).wellFormed = true ∧ (Instr.pack 0 0).wellFormed = true := by decide

theorem witness_DecodedWordIsThatCommandsWord :
    decodeWord 0x40FF = .ok (.pack 15 15) ∧ decodeWord 0x4400 = .ok .xor := ⟨rfl, rfl⟩

theorem witness_UnselectedWordGivesIllcmd :
    (State.reset.withScript [.write 0x00 0x0001]).port.script = [.write 0x00 0x0001] ∧
    (∀ i : Instr, (0x0001 : Word) &&& (tableRow i).2 ≠ (tableRow i).1) ∧
    (∀ i : Instr, (0x4500 : Word) &&& (tableRow i).2 ≠ (tableRow i).1) := by
  refine ⟨rfl, ?_, ?_⟩ <;> intro i <;> cases i <;> simp only [tableRow] <;> decide

theorem witness_StepRunsTheDecodedCommand :
    (State.reset.withScript [.write 0x00 0x402F]).port.script = [.write 0x00 0x402F] ∧
    decodeWord 0x402F = .ok (.pack 2 15) ∧ (Instr.pack 2 15).wellFormed = true := ⟨rfl, rfl, rfl⟩

theorem witness_StepIdlesWithNothingPending : State.reset.port.script = [] := rfl

/-- Index 0x00 with a legal and an illegal word, both ends of the RW and of the RO indices, unmapped
indices at both ends. -/
theorem witness_HostWriteEffect :
    (State.reset.withScript [.write 0x08 0x1FF]).port.script = [.write 0x08 0x1FF] ∧
    decodeWord 0x0100 = .ok .clr ∧ decodeWord 0x0200 = .error (.unassignedOpcode 0x02) ∧
    Reg.access .pinleni = .readWrite ∧ Reg.index .pinleni = 0x08 ∧
    Reg.access (.fldi 15) = .readWrite ∧ Reg.index (.fldi 15) = 0x5F ∧
    Reg.access .status = .readOnly ∧ Reg.index .status = 0x01 ∧
    Reg.access (.fldo 15) = .readOnly ∧ Reg.index (.fldo 15) = 0x8F ∧
    (∀ r : Reg, (0x06 : Index) ≠ r.index) ∧ (∀ r : Reg, (0x90 : Index) ≠ r.index) := by
  refine ⟨rfl, rfl, rfl, rfl, rfl, rfl, rfl, rfl, rfl, rfl, rfl, ?_, ?_⟩ <;>
    exact (regAt_eq_none_iff _).mp rfl

/-- What a write and a read do at those indices (20_memory R74 to R77). -/
theorem test_host_write_and_read :
    (stateOf (step (State.reset.withScript [.write 0x08 0x1FF]))).inp.pinleni = 0xFF ∧
    (stateOf (step (State.reset.withScript [.write 0x10 0x1F]))).inp.pini[0] = 0xF ∧
    (stateOf (step (State.reset.withScript [.write 0x01 0x55]))).out.status = 0x00 ∧
    (stateOf (step (pin1234.withScript [.read 0x26]))).port.rdata = 0x009F ∧
    (stateOf (step (pin1234.withScript [.read 0x2A]))).port.rdata = 0x0000 := by decide

theorem witness_HostReadReturnsTheRegister :
    (State.reset.withScript [.read 0x8F]).port.script = [.read 0x8F] ∧
    (0x10 : Index).toNat = 0x10 + (0 : Fin 12).val ∧ (0x1B : Index).toNat = 0x10 + (11 : Fin 12).val ∧
    (0x29 : Index).toNat = 0x20 + (9 : Fin 10).val ∧ (0x37 : Index).toNat = 0x30 + (7 : Fin 8).val ∧
    (0x4F : Index).toNat = 0x40 + (15 : Fin 16).val ∧
    (0x5F : Index).toNat = 0x50 + (15 : Fin 16).val ∧
    (0x6B : Index).toNat = 0x60 + (11 : Fin 12).val ∧
    (0x7F : Index).toNat = 0x70 + (15 : Fin 16).val ∧
    (0x8F : Index).toNat = 0x80 + (15 : Fin 16).val ∧
    (∀ r : Reg, (0x1C : Index) ≠ r.index) := by
  refine ⟨rfl, rfl, rfl, rfl, rfl, rfl, rfl, rfl, rfl, rfl, (regAt_eq_none_iff _).mp rfl⟩

theorem witness_UnmappedIndicesAreInert :
    (∀ r : Reg, (0x06 : Index) ≠ r.index) ∧ (∀ r : Reg, (0x0F : Index) ≠ r.index) ∧
    (∀ r : Reg, (0x6F : Index) ≠ r.index) ∧ (∀ r : Reg, (0xFF : Index) ≠ r.index) ∧
    regAt 0x05 = some .fldleno ∧ regAt 0x8F = some (.fldo 15) := by
  refine ⟨?_, ?_, ?_, ?_, rfl, rfl⟩ <;> exact (regAt_eq_none_iff _).mp rfl

theorem witness_MvblkMovesTheBlock :
    (pin1234.withScript (Stmt.mvblk.expand ++ [.read 0x40])).port.script =
      Stmt.mvblk.expand ++ [.read 0x40] := rfl

theorem witness_ExpectComparesTheValueRead :
    (pin1234.withScript [.expect 0x08 4]).port.script = [.expect 0x08 4] ∧
    (stateOf (step (pin1234.withScript [.expect 0x08 4]))).port.expectOk = true ∧
    (stateOf (step (pin1234.withScript [.expect 0x08 5]))).port.expectOk = false := by decide

theorem witness_NopChangesNothing :
    0x0001 ≤ (0x0001 : Word).toNat ∧ (0x00FF : Word).toNat ≤ 0x00FF := by decide

/-- A state with a command to run. -/
def enc2Pending : State := pin1234.withScript [.write 0x00 0x1200]

theorem enc2Pending_next : step enc2Pending = .next (stateOf (step enc2Pending)) :=
  next_of_isNext (by decide)

theorem witness_StepKeepsTheInvariant :
    enc2Pending.Inv ∧ step enc2Pending = .next (stateOf (step enc2Pending)) :=
  ⟨by decide, enc2Pending_next⟩

theorem witness_ScratchIsZeroAfterEveryWord :
    enc2Pending.ScratchClear ∧ enc2Pending.port.script = [.write 0x00 0x1200] ∧
    step enc2Pending = .next (stateOf (step enc2Pending)) := ⟨rfl, rfl, enc2Pending_next⟩

theorem witness_FailureDeliversNothing :
    Instr.enc0 ≠ .nop ∧ ∃ t, exec .enc0 State.reset = .next t ∧ t.out.status ≠ 0x00 :=
  ⟨by decide, _, rfl, by decide⟩

theorem witness_CommandFrame :
    (∃ t, exec .enc2 pin1234 = .next t) ∧ mayDraw .enc2 = false ∧ Instr.enc2 ≠ .clr ∧
    Instr.enc2 ≠ .nop ∧ (∃ t, exec .nop pin1234 = .next t) := by
  refine ⟨⟨_, rfl⟩, rfl, by decide, by decide, ⟨_, rfl⟩⟩

theorem witness_OutputsNotProducedAreZero :
    (∃ t, exec .xor pin1234 = .next t) ∧ (∃ t, exec .dec0 pin1234 = .next t) ∧
    (∃ t, exec .unpack pin1234 = .next t) ∧
    exec .getfmt pin1234 = .next (stateOf (exec .getfmt pin1234)) ∧
    (∃ t, exec .drv128 pin1234 = .next t) :=
  ⟨⟨_, rfl⟩, ⟨_, rfl⟩, ⟨_, rfl⟩, next_of_isNext (by decide), ⟨_, rfl⟩⟩

theorem witness_CommandStopsOnlyOnASilentSource :
    exec .enc4 (answers [some 1, none] pin1234) = .fault .randomSourceSilent :=
  fault_of_isRandomSourceSilent (by decide)

theorem witness_StepCompletesWhileTheSourceAnswers :
    State.reset.rng.responsive = true ∧ (answers [some 1] pin1234).rng.responsive = true := by decide

theorem witness_CommandIgnoresEarlierResults : Instr.xor ≠ .nop := by decide

/-- Inputs that differ outside `ENC2`'s operands: a digit beyond the length, and the PAN. -/
theorem witness_CommandReadsOnlyItsOperands :
    let x : InputRegs := { pin1234.inp with pini := arr 12 [1, 2, 3, 4, 9], pan := arr 10 [] }
    Instr.enc4 ≠ .clr ∧ sameOperands .enc4 pin1234.inp x ∧ x ≠ pin1234.inp ∧
    (∃ t, exec .enc2 pin1234 = .next t) ∧
    exec .enc4 (answers [none] pin1234) = .fault .randomSourceSilent := by
  refine ⟨by decide, ⟨rfl, by decide⟩, by decide, ⟨_, rfl⟩, fault_of_isRandomSourceSilent (by decide)⟩

theorem witness_CommandWithoutDrawsIsIdempotent :
    ∃ t, exec .enc2 pin1234 = .next t ∧ t.rng = pin1234.rng := ⟨_, rfl, rfl⟩

/-- Format 1 without and with a nonce, format 3, format 4, and a failure. -/
theorem witness_DrawCounts :
    exec .enc1 pin1234 = .next (stateOf (exec .enc1 pin1234)) ∧
    (stateOf (exec .enc1 pin1234)).rng.drawn = 5 ∧
    (stateOf (exec .enc1 (lens 4 0 8 0 pin1234))).rng.drawn = 0 ∧
    (stateOf (exec .enc3 pin1234)).rng.drawn = 10 ∧
    (stateOf (exec .enc4 pin1234)).rng.drawn = 8 ∧
    (stateOf (exec .enc4 State.reset)).rng.drawn = 0 :=
  ⟨next_of_isNext rfl, rfl, rfl, rfl, rfl, rfl⟩

theorem witness_PackResult :
    code (exec (.pack 0 0) (lens 12 0 0 0 .reset)) = 0x00 ∧
    code (exec (.pack 0 0) (lens 13 0 0 0 .reset)) = 0x02 ∧
    code (exec (.pack 0 0) (lens 16 0 0 0 .reset)) = 0x00 := by decide

theorem witness_UnpackResult :
    code (exec .unpack (lens 12 0 0 0 .reset)) = 0x00 ∧
    code (exec .unpack (lens 15 0 0 0 .reset)) = 0x02 ∧
    code (exec .unpack (lens 0 0 0 0 .reset)) = 0x00 := by decide

theorem witness_PackAndUnpackInvert :
    (0x1C : Byte).toNat % 16 ≤ 12 ∧
    (nib (arr 8 [(0x2C : Byte)]) 1).toNat = (0x1C : Byte).toNat % 16 := by decide

theorem witness_PackMasksTheLength :
    (0x14 : Byte) &&& 0x0F = pin1234.inp.pinleni &&& 0x0F ∧
    (∃ t, exec (.pack 2 15) pin1234 = .next t) ∧
    (∃ u, exec (.pack 2 15) { pin1234 with inp := { pin1234.inp with pinleni := 0x14 } } = .next u) :=
  ⟨by decide, ⟨_, rfl⟩, ⟨_, rfl⟩⟩

theorem witness_DrvSixtyFourResult :
    code (exec .drv64 (lens 0 0 0 0 pin1234)) = 0x01 ∧ code (exec .drv64 (lens 0 11 0 0 pin1234)) = 0x01 ∧
    code (exec .drv64 (lens 0 1 0 0 pin1234)) = 0x00 ∧
    code (exec .drv64 (lens 0 10 0 0 pin1234)) = 0x00 := by decide

/-- Digit counts 12 and 13 are where the two clauses of the field meet. -/
theorem witness_DrvOneTwentyEightResult :
    code (exec .drv128 (lens 0 0 0 0 pin1234)) = 0x01 ∧
    code (exec .drv128 (lens 0 11 0 0 pin1234)) = 0x01 ∧
    digitCount pin1234.inp.pan 12 = 12 ∧ code (exec .drv128 (lens 0 6 0 0 pin1234)) = 0x00 ∧
    digitCount pin1234.inp.pan 14 = 13 ∧ code (exec .drv128 pin1234) = 0x00 := by decide

theorem witness_XorResult :
    code (exec .xor (lens 0 0 0 0 .reset)) = 0x01 ∧ code (exec .xor (lens 0 0 0 9 .reset)) = 0x03 ∧
    code (exec .xor (lens 0 0 0 8 .reset)) = 0x00 ∧
    code (exec .xor (lens 0 0 0 16 .reset)) = 0x00 := by decide

theorem witness_EncodeFormatZeroResult :
    code (exec .enc0 (lens 0 7 0 0 pin1234)) = 0x01 ∧ code (exec .enc0 (lens 4 0 0 0 pin1234)) = 0x01 ∧
    code (exec .enc0 (lens 3 11 0 0 pin1234)) = 0x01 ∧
    code (exec .enc0 (lens 3 10 0 0 pin1234)) = 0x02 ∧
    code (exec .enc0 (lens 13 1 0 0 pin1234)) = 0x02 ∧
    code (exec .enc0 (lens 4 10 0 0 pin1234)) = 0x00 ∧
    code (exec .enc0 (lens 12 1 0 0 pin1234)) = 0x00 := by decide

/-- `cap` is 5 for 4 digits and 1 for 12: a nonce of 4 bytes is too short for the first. -/
theorem witness_EncodeFormatOneResult :
    code (exec .enc1 (lens 0 0 0 0 pin1234)) = 0x01 ∧ code (exec .enc1 (lens 4 0 9 0 pin1234)) = 0x01 ∧
    code (exec .enc1 (lens 3 0 8 0 pin1234)) = 0x02 ∧ code (exec .enc1 (lens 13 0 0 0 pin1234)) = 0x02 ∧
    code (exec .enc1 (lens 4 0 4 0 pin1234)) = 0x06 ∧ code (exec .enc1 (lens 4 0 5 0 pin1234)) = 0x00 ∧
    code (exec .enc1 (lens 12 0 1 0 pin1234)) = 0x00 ∧ pin1234.rng.responsive = true ∧
    code (exec .enc1 (answers [some 1, some 2, some 3, some 4, some 5] pin1234)) = 0x00 := by decide

theorem witness_EncodeFormatTwoResult :
    code (exec .enc2 (lens 0 0 0 0 pin1234)) = 0x01 ∧ code (exec .enc2 (lens 3 0 0 0 pin1234)) = 0x02 ∧
    code (exec .enc2 (lens 13 0 0 0 pin1234)) = 0x02 ∧ code (exec .enc2 (lens 4 0 0 0 pin1234)) = 0x00 ∧
    code (exec .enc2 (lens 12 0 0 0 pin1234)) = 0x00 := by decide

theorem witness_EncodeFormatThreeResult :
    code (exec .enc3 (lens 0 7 0 0 pin1234)) = 0x01 ∧ code (exec .enc3 (lens 4 0 0 0 pin1234)) = 0x01 ∧
    code (exec .enc3 (lens 3 7 0 0 pin1234)) = 0x02 ∧ code (exec .enc3 (lens 13 7 0 0 pin1234)) = 0x02 ∧
    pin1234.rng.responsive = true ∧
    code (exec .enc3 (answers [some 1, some 2] (lens 12 7 0 0 pin1234))) = 0x00 := by decide

theorem witness_EncodeFormatFourResult :
    code (exec .enc4 (lens 0 0 0 0 pin1234)) = 0x01 ∧ code (exec .enc4 (lens 3 0 0 0 pin1234)) = 0x02 ∧
    code (exec .enc4 (lens 13 0 0 0 pin1234)) = 0x02 ∧ pin1234.rng.responsive = true ∧
    code (exec .enc4 (answers (List.replicate 8 (some 0)) (lens 12 0 0 0 pin1234))) = 0x00 := by decide

theorem witness_EncodeFormatTwoIsPack :
    4 ≤ pin1234.inp.pinleni.toNat ∧ pin1234.inp.pinleni.toNat ≤ 12 ∧
    4 ≤ (lens 12 0 0 0 pin1234).inp.pinleni.toNat ∧ (lens 12 0 0 0 pin1234).inp.pinleni.toNat ≤ 12 := by
  decide

/-- The PAN of one pad byte gives a zero field, so these blocks are their own unmasked fields. -/
def masked (blk : List Byte) : State := operands [] [0xFF] [] blk []

theorem witness_DecodeFormatZeroResult :
    code (exec .dec0 (lens 0 7 0 0 pin1234)) = 0x01 ∧ code (exec .dec0 (lens 0 0 0 8 pin1234)) = 0x01 ∧
    code (exec .dec0 (lens 0 11 0 7 pin1234)) = 0x01 ∧ code (exec .dec0 (lens 0 10 0 7 pin1234)) = 0x03 ∧
    code (exec .dec0 (masked [0x14, 0, 0, 0, 0, 0, 0, 0])) = 0x04 ∧
    code (exec .dec0 (masked [0x03, 0, 0, 0, 0, 0, 0, 0])) = 0x02 ∧
    code (exec .dec0 (masked [0x0D, 0, 0, 0, 0, 0, 0, 0])) = 0x02 ∧
    code (exec .dec0 (masked [0x04, 1, 2, 0xFF, 0xFF, 0xFF, 0xFF, 0xFE])) = 0x05 ∧
    code (exec .dec0 (masked [0x04, 1, 2, 0xFF, 0xFF, 0xFF, 0xFF, 0xFF])) = 0x00 ∧
    code (exec .dec0 (masked [0x0C, 1, 2, 3, 4, 5, 6, 0xFF])) = 0x00 := by decide

theorem witness_DecodeFormatOneResult :
    code (exec .dec1 (lens 0 0 0 0 .reset)) = 0x01 ∧ code (exec .dec1 (lens 0 0 0 16 .reset)) = 0x03 ∧
    code (exec .dec1 (masked [0x04, 0, 0, 0, 0, 0, 0, 0])) = 0x04 ∧
    code (exec .dec1 (masked [0x13, 0, 0, 0, 0, 0, 0, 0])) = 0x02 ∧
    code (exec .dec1 (masked [0x14, 0, 0, 0, 0, 0, 0, 0])) = 0x00 ∧
    code (exec .dec1 (masked [0x1C, 0, 0, 0, 0, 0, 0, 0])) = 0x00 := by decide

theorem witness_DecodeFormatTwoResult :
    code (exec .dec2 (lens 0 0 0 0 .reset)) = 0x01 ∧ code (exec .dec2 (lens 0 0 0 16 .reset)) = 0x03 ∧
    code (exec .dec2 (masked [0x34, 0, 0, 0, 0, 0, 0, 0])) = 0x04 ∧
    code (exec .dec2 (masked [0x2D, 0, 0, 0, 0, 0, 0, 0])) = 0x02 ∧
    code (exec .dec2 (masked [0x24, 1, 2, 0xFE, 0xFF, 0xFF, 0xFF, 0xFF])) = 0x05 ∧
    code (exec .dec2 (masked [0x24, 1, 2, 0xFF, 0xFF, 0xFF, 0xFF, 0xFF])) = 0x00 ∧
    code (exec .dec2 (masked [0x2C, 1, 2, 3, 4, 5, 6, 0xFF])) = 0x00 := by decide

/-- Digits 9 and 0xA, padding 0xA and 9 are where the alphabets meet. -/
theorem witness_DecodeFormatThreeResult :
    code (exec .dec3 (lens 0 7 0 0 pin1234)) = 0x01 ∧ code (exec .dec3 (lens 0 11 0 8 pin1234)) = 0x01 ∧
    code (exec .dec3 (lens 0 7 0 16 pin1234)) = 0x03 ∧
    code (exec .dec3 (masked [0x24, 0, 0, 0, 0, 0, 0, 0])) = 0x04 ∧
    code (exec .dec3 (masked [0x33, 0, 0, 0, 0, 0, 0, 0])) = 0x02 ∧
    code (exec .dec3 (masked [0x34, 0x99, 0x9A, 0xAA, 0xAA, 0xAA, 0xAA, 0xAA])) = 0x05 ∧
    code (exec .dec3 (masked [0x34, 0x99, 0x99, 0x9A, 0xAA, 0xAA, 0xAA, 0xAA])) = 0x05 ∧
    code (exec .dec3 (masked [0x34, 0x99, 0x99, 0xAA, 0xAA, 0xAA, 0xAA, 0xAF])) = 0x00 := by decide

theorem witness_DecodeFormatFourResult :
    code (exec .dec4 (lens 0 0 0 0 .reset)) = 0x01 ∧ code (exec .dec4 (lens 0 0 0 8 .reset)) = 0x03 ∧
    code (exec .dec4 (lens 0 0 0 16 (masked [0x34]))) = 0x04 ∧
    code (exec .dec4 (lens 0 0 0 16 (masked [0x4D]))) = 0x02 ∧
    code (exec .dec4 (lens 0 0 0 16 (masked [0x44, 1, 2, 0xAA, 0xAA, 0xAA, 0xAA, 0xAB]))) = 0x05 ∧
    code (exec .dec4 (lens 0 0 0 16 (masked [0x44, 1, 2, 0xAA, 0xAA, 0xAA, 0xAA, 0xAA, 7]))) = 0x00 := by
  decide

theorem witness_GetfmtResult :
    code (exec .getfmt (lens 0 0 0 0 .reset)) = 0x01 ∧ code (exec .getfmt (lens 0 0 0 7 .reset)) = 0x03 ∧
    code (exec .getfmt (lens 0 0 0 9 .reset)) = 0x03 ∧
    code (exec .getfmt (lens 0 0 0 17 .reset)) = 0x03 ∧
    code (exec .getfmt (lens 0 0 0 8 (masked [0x30]))) = 0x00 ∧
    code (exec .getfmt (lens 0 0 0 8 (masked [0x40]))) = 0x04 ∧
    code (exec .getfmt (lens 0 0 0 16 (masked [0x40]))) = 0x00 ∧
    code (exec .getfmt (lens 0 0 0 16 (masked [0x50]))) = 0x04 := by decide

/-- One operand for each of the nine clauses. -/
theorem witness_DecodeRoutesToTheFormatsDecoder :
    code (exec .decode (lens 0 0 0 0 .reset)) = 0x01 ∧ code (exec .decode (lens 0 0 0 7 .reset)) = 0x03 ∧
    code (exec .decode (masked [0x04, 1, 2, 0xFF, 0xFF, 0xFF, 0xFF, 0xFF])) = 0x00 ∧
    code (exec .decode (masked [0x14, 0, 0, 0, 0, 0, 0, 0])) = 0x00 ∧
    code (exec .decode (masked [0x24, 1, 2, 0xFF, 0xFF, 0xFF, 0xFF, 0xFE])) = 0x05 ∧
    code (exec .decode (lens 0 0 0 8 (masked [0x34]))) = 0x01 ∧
    code (exec .decode (lens 0 0 0 16 (masked [0x44, 1, 2, 0xAA, 0xAA, 0xAA, 0xAA, 0xAA]))) = 0x00 ∧
    code (exec .decode (lens 0 0 0 8 (masked [0x44]))) = 0x04 ∧
    code (exec .decode (lens 0 0 0 16 (masked [0x34]))) = 0x04 := by decide

theorem witness_DecodeDeliversAFormatTwoPin :
    let s := masked [0x2C, 1, 2, 3, 4, 5, 6, 0xFF]
    s.inp.blkleni = 8 ∧ nib s.inp.blki 0 = 2 ∧ 4 ≤ (nib s.inp.blki 1).toNat ∧
    (nib s.inp.blki 1).toNat ≤ 12 ∧
    (∀ k : Fin 16, 2 + (nib s.inp.blki 1).toNat ≤ k.val → nib s.inp.blki k.val = 0xF) := by decide

/-- A block of each format. -/
theorem witness_GetfmtThenDecoderIsDecode :
    ([0x00, 0x10, 0x20, 0x30] : List Byte).all (fun b =>
      let r := exec .getfmt (lens 0 0 0 8 (masked [b]))
      isNext r && code r == 0 && (stateOf r).out.fmto == hiNib b) = true ∧
    code (exec .getfmt (lens 0 0 0 16 (masked [0x44]))) = 0x00 ∧
    (stateOf (exec .getfmt (lens 0 0 0 16 (masked [0x44])))).out.fmto = 4 := by decide

/-- The state of the `XOR` of 43_combiner R193: the block and the field produced before. -/
def chained (p d : State) : State :=
  { State.reset with inp := { InputRegs.zero with
      blki := p.out.blko, blkleni := p.out.blkleno, fldi := d.out.fldo } }

theorem witness_PrimitivesChainToEncodeZero :
    ∃ s p d x e : State,
      4 ≤ s.inp.pinleni.toNat ∧ s.inp.pinleni.toNat ≤ 12 ∧
      1 ≤ s.inp.panlen.toNat ∧ s.inp.panlen.toNat ≤ 10 ∧
      exec (.pack 0 15) s = .next p ∧ exec .drv64 s = .next d ∧
      x.inp.blki = p.out.blko ∧ x.inp.blkleni = p.out.blkleno ∧ x.inp.fldi = d.out.fldo ∧
      exec .enc0 s = .next e :=
  ⟨pin1234, _, _, chained (stateOf (exec (.pack 0 15) pin1234)) (stateOf (exec .drv64 pin1234)), _,
    by decide, by decide, by decide, by decide, rfl, rfl, rfl, rfl, rfl, rfl⟩

/-- A good block of format 0 and one of format 3 (45_decode R235, R238). -/
def good0 : State := operands [] pan13 [] [0x04, 0x12, 0x74, 0xED, 0xCB, 0xA9, 0x87, 0x6F] []
def good3 : State := operands [] pan13 [] [0x34, 0x12, 0x74, 0xB8, 0x8F, 0x9A, 0xA5, 0x7E] []

theorem chain_to_decode (s : State) (i : Instr) (hi : isNext (exec i s) = true)
    (hs : (stateOf (exec i s)).out.status = 0x00) :
    ∃ d x y z u : State,
      exec i s = .next u ∧ u.out.status = 0x00 ∧ exec .drv64 s = .next d ∧
      x.inp.blki = s.inp.blki ∧ x.inp.blkleni = s.inp.blkleni ∧ x.inp.fldi = d.out.fldo ∧
      exec .xor x = .next y ∧
      z.inp.blki = y.out.blko ∧ z.inp.pinleni = (nib s.inp.blki 1).setWidth 8 :=
  ⟨stateOf (exec .drv64 s), { s with inp := { s.inp with fldi := (stateOf (exec .drv64 s)).out.fldo } },
    _, { s with inp := { s.inp with
        blki := (stateOf (exec .xor { s with inp := { s.inp with
          fldi := (stateOf (exec .drv64 s)).out.fldo } })).out.blko
        pinleni := (nib s.inp.blki 1).setWidth 8 } }, stateOf (exec i s),
    next_of_isNext hi, hs, rfl, rfl, rfl, rfl, rfl, rfl, rfl⟩

theorem witness_PrimitivesChainToDecode :
    ∃ (s d x y z u : State) (i : Instr), (i = .dec0 ∨ i = .dec3) ∧
      exec i s = .next u ∧ u.out.status = 0x00 ∧ exec .drv64 s = .next d ∧
      x.inp.blki = s.inp.blki ∧ x.inp.blkleni = s.inp.blkleni ∧ x.inp.fldi = d.out.fldo ∧
      exec .xor x = .next y ∧
      z.inp.blki = y.out.blko ∧ z.inp.pinleni = (nib s.inp.blki 1).setWidth 8 := by
  obtain ⟨d, x, y, z, u, h⟩ := chain_to_decode good0 .dec0 (by decide) (by decide)
  exact ⟨good0, d, x, y, z, u, .dec0, .inl rfl, h⟩

theorem witness_PrimitivesChainToDecode_format_three :
    isNext (exec .dec3 good3) = true ∧ code (exec .dec3 good3) = 0x00 := by decide

theorem witness_RoundTripFormatZero :
    ∃ s t u : State, exec .enc0 s = .next t ∧ t.out.status = 0x00 ∧
      u.inp.blki = t.out.blko ∧ u.inp.blkleni = t.out.blkleno ∧
      u.inp.pan = s.inp.pan ∧ u.inp.panlen = s.inp.panlen :=
  ⟨pin1234, stateOf (exec .enc0 pin1234), moved pin1234 (stateOf (exec .enc0 pin1234)),
    next_of_isNext (by decide), by decide, rfl, rfl, rfl, rfl⟩

/-- Decimal digits, and a PIN with the digit 0xA that encodes and fails to decode. -/
theorem witness_RoundTripFormatThree :
    let s := answers (List.replicate 10 (some 0)) pin1234
    let s' := answers (List.replicate 10 (some 0)) (operands [0xA, 2, 3, 4] pan13 [] [] [])
    exec .enc3 s = .next (stateOf (exec .enc3 s)) ∧ code (exec .enc3 s) = 0x00 ∧
    code (exec .dec3 (moved s (stateOf (exec .enc3 s)))) = 0x00 ∧
    exec .enc3 s' = .next (stateOf (exec .enc3 s')) ∧ code (exec .enc3 s') = 0x00 ∧
    code (exec .dec3 (moved s' (stateOf (exec .enc3 s')))) = 0x05 := by
  refine ⟨next_of_isNext (by decide), by decide, by decide, next_of_isNext (by decide), by decide,
    by decide⟩

theorem witness_RoundTripUnmaskedFormats :
    let s := answers (List.replicate 8 (some 0)) pin1234
    exec .enc1 s = .next (stateOf (exec .enc1 s)) ∧ code (exec .enc1 s) = 0x00 ∧
    exec .enc2 s = .next (stateOf (exec .enc2 s)) ∧ code (exec .enc2 s) = 0x00 ∧
    exec .enc4 s = .next (stateOf (exec .enc4 s)) ∧ code (exec .enc4 s) = 0x00 := by
  refine ⟨next_of_isNext (by decide), by decide, next_of_isNext (by decide), by decide,
    next_of_isNext (by decide), by decide⟩

/-- A PAN that differs in its last window digit is caught; one that differs in the check digit is not
(45_decode R240 (a), (c)). -/
theorem witness_WrongPanDetectionFormatZero :
    let t := stateOf (exec .enc0 pin1234)
    let other := operands [] [0x40, 0x12, 0x34, 0x56, 0x78, 0x91, 0x9F] [] [] []
    let same := operands [] [0x40, 0x12, 0x34, 0x56, 0x78, 0x90, 0x8F] [] [] []
    exec .enc0 pin1234 = .next t ∧ t.out.status = 0x00 ∧
    1 ≤ other.inp.panlen.toNat ∧ other.inp.panlen.toNat ≤ 10 ∧
    code (exec .dec0 (moved other t)) = 0x05 ∧ code (exec .dec0 (moved same t)) = 0x00 := by
  refine ⟨next_of_isNext (by decide), by decide, by decide, by decide, by decide, by decide⟩

end Sys2Proof.Tests
end

