-- ==== Sys2Proof/Proofs/Completion.lean ====
section
/-! SUPPORT. When a step completes (spec 00_scope R15): a command stops only at a silent answer of the
random-byte source, and a source that answers goes on answering. -/

namespace Sys2Proof.Machine

/-! ### Commands -/

/-- A source answers for ever exactly when silence is not among its supplied answers. -/
theorem responsive_iff_none_notMem (g : RngSource) : g.responsive = true ↔ none ∉ g.answers := by
  simp only [RngSource.responsive, List.all_eq_true]
  constructor
  · intro h hmem
    exact absurd (h none hmem) (by simp)
  · intro h a ha
    exact Option.isSome_iff_ne_none.mpr fun hnone => h (hnone ▸ ha)

/-- A command that draws after its checks completes, or is stuck at a silent answer. -/
theorem checkedDraws_next_or_silent (s : State) (err : Option Code) (n : Nat)
    (body : List Byte → State → State) :
    (∃ t, s.checkedDraws err n body = .next t) ∨
    (none ∈ s.rng.answers ∧ s.checkedDraws err n body = .fault .randomSourceSilent) := by
  rcases checkedDraws_cases s err n body with ⟨_, _, hs⟩ | ⟨_, hd, hs⟩ | ⟨_, _, _, _, hs⟩
  · exact .inl ⟨_, hs⟩
  · exact .inr ⟨drawBytes_none hd, hs⟩
  · exact .inl ⟨_, hs⟩

/-- Every command completes, or it is one that draws and is stuck at a silent answer of the source (spec
42_padding R171, 93 U3); none is refused. -/
theorem exec_next_or_silent (i : Instr) (s : State) :
    (∃ t, exec i s = .next t) ∨
    (mayDraw i = true ∧ none ∈ s.rng.answers ∧ exec i s = .fault .randomSourceSilent) := by
  cases i with
  | enc1 =>
    simp only [exec, execEnc1]
    split
    · exact (checkedDraws_next_or_silent s _ _ _).imp_right fun h => ⟨rfl, h⟩
    · exact .inl ⟨_, rfl⟩
  | enc3 => exact (checkedDraws_next_or_silent s _ _ _).imp_right fun h => ⟨rfl, h⟩
  | enc4 => exact (checkedDraws_next_or_silent s _ _ _).imp_right fun h => ⟨rfl, h⟩
  | getfmt =>
    simp only [exec, execGetfmt]
    split <;> exact .inl ⟨_, rfl⟩
  | decode =>
    simp only [exec, execDecode]
    split <;> exact .inl ⟨_, rfl⟩
  | _ => exact .inl ⟨_, rfl⟩

/-- A command moves the source on along its supplied answers, or not at all. -/
theorem exec_rng_answers {i : Instr} {s t : State} (h : exec i s = .next t) :
    ∃ n, t.rng.answers = s.rng.answers.drop n := by
  rcases exec_next_cases h with ⟨_, rfl⟩ | ⟨_, rfl⟩ | ⟨_, rfl⟩ | ⟨_, _, rfl, _, hdrop⟩
  · exact ⟨0, rfl⟩
  · exact ⟨0, rfl⟩
  · exact ⟨0, rfl⟩
  · exact hdrop

/-! ### The step -/

/-- The outcome is a next state, and the random-byte source answers in it. -/
def CompletesResponsive (r : Result) : Prop := ∃ t, r = .next t ∧ t.rng.responsive = true

theorem completesResponsive_next {t : State} (h : t.rng.responsive = true) :
    CompletesResponsive (.next t) := ⟨t, rfl, h⟩

/-- With nothing pending a step idles (00_scope R13, 70_reset_and_hazards R341). -/
theorem step_of_script_nil {s : State} (h : s.port.script = []) : step s = .next s := by
  simp [step, portStep, h]

theorem writeData_rng (s : State) (idx : Index) (v : Word) : (s.writeData idx v).rng = s.rng := by
  unfold State.writeData
  split <;> rfl

section
variable {s : State} (hs : s.rng.responsive = true)
include hs

theorem exec_completesResponsive (i : Instr) : CompletesResponsive (exec i s) := by
  rcases exec_next_or_silent i s with ⟨t, ht⟩ | ⟨_, hsilent, _⟩
  · obtain ⟨n, hdrop⟩ := exec_rng_answers ht
    exact ⟨t, ht, responsive_of_drop hs hdrop⟩
  · exact absurd hsilent ((responsive_iff_none_notMem s.rng).mp hs)

/-- Legal words run their command; illegal ones fail without a draw (spec 30_encoding R101, R106). -/
theorem runWord_completesResponsive (cw : Word) : CompletesResponsive (runWord exec cw s) := by
  unfold runWord
  split
  · exact exec_completesResponsive hs _
  · exact completesResponsive_next hs

theorem hostWrite_completesResponsive (idx : Index) (v : Word) :
    CompletesResponsive (hostWrite exec idx v s) := by
  unfold hostWrite
  split
  · exact runWord_completesResponsive hs v
  · exact completesResponsive_next ((writeData_rng s idx v).symm ▸ hs)

theorem portOp_completesResponsive (op : PortOp) : CompletesResponsive (portOp exec op s) := by
  cases op with
  | write idx v => exact hostWrite_completesResponsive hs idx v
  | copy idx => exact hostWrite_completesResponsive hs idx s.port.rdata
  | read idx => exact completesResponsive_next hs
  | expect idx v => exact completesResponsive_next hs
  | reset => exact completesResponsive_next hs
  | resetDuring cw requests => exact completesResponsive_next (responsive_of_drop hs rfl)
  | supply bytes => exact completesResponsive_next (responsive_supply hs bytes)

theorem step_completesResponsive : CompletesResponsive (step s) := by
  cases hscript : s.port.script with
  | nil =>
    rw [step_of_script_nil hscript]
    exact completesResponsive_next hs
  | cons op rest =>
    rw [step_of_script hscript]
    exact portOp_completesResponsive (s := s.withScript rest) hs op

end

/-- Settles O24: the step completes whatever the pending operation is, by the cases of the script and of
the port operation; a command is the only one that could stop, and only at a silent answer. -/
theorem stepCompletesWhileTheSourceAnswers : Obligations.StepCompletesWhileTheSourceAnswers :=
  fun _ hs => step_completesResponsive hs

end Sys2Proof.Machine
end

section
/-! SUPPORT. What a command does, as a function of the input registers alone (spec 10_state R51, R56): the
code it fails with, or how many random bytes it draws and the outputs it makes of them. -/

namespace Sys2Proof.Machine

/-! ### The outcome of a command, computed from its operands -/

/-- What a command other than `NOP` and `CLR` is to do. -/
inductive Plan where
  /-- It fails with a code (60_exceptions R306). -/
  | fail (c : Code)
  /-- It draws bytes and delivers outputs made of them (00_scope R10, 42_padding R171). -/
  | deliver (draws : Nat) (out : List Byte → OutputRegs)

/-- The plan of a command whose checks come first (60_exceptions R303). -/
def Plan.checked (err : Option Code) (draws : Nat) (out : List Byte → OutputRegs) : Plan :=
  match err with
  | some c => .fail c
  | none => .deliver draws out

/-- A plan carried out. -/
def Plan.outcome (p : Plan) (s : State) : Result :=
  match p with
  | .fail c => .next (s.failedWith c.toByte)
  | .deliver n out =>
    match drawBytes n s.rng with
    | none => .fault .randomSourceSilent
    | some (r, g) => .next ((s.doneWith (out r)).withRng g)

/-- The block an encoder delivers, from the padding bytes `S` (44_encode R203 to R207). -/
def encodedBlock (inp : InputRegs) (fmt : Format) (S : List Byte) : OutputRegs :=
  match fmt with
  | .f0 => .block8 (combine (pack 0x0 inp.pini inp.pinleni 0xF) inp.panField8)
  | .f1 => .block8 (pad1 (pack 0x1 inp.pini inp.pinleni 0x0) inp.pinleni.toNat S)
  | .f2 => .block8 (pack 0x2 inp.pini inp.pinleni 0xF)
  | .f3 => .block8 (combine
      (pad3 (pack 0x3 inp.pini inp.pinleni 0x0) inp.pinleni.toNat S) inp.panField8)
  | .f4 => .block16 (joinHalves (pack 0x4 inp.pini inp.pinleni 0xA) S)

/-- The block `XOR` delivers (43_combiner R192). -/
def xorBlock (inp : InputRegs) : OutputRegs :=
  if inp.blkleni = 8 then .block8 (combine inp.blk8 (first8 inp.fldi))
  else .block16 (combine inp.blki inp.fldi)

/-- The plan of `ENC1`: pad with the host's nonce, or with drawn bytes when there is none (44_encode
R204). -/
def enc1Plan (inp : InputRegs) : Plan :=
  if inp.noncelen = 0 then
    .checked (encode1Error inp) (padCapacity inp.pinleni.toNat) (encodedBlock inp .f1)
  else .checked (encode1Error inp) 0 fun _ =>
    encodedBlock inp .f1 (nonceSource inp (padCapacity inp.pinleni.toNat))

/-- All a decoder can fail with: the checks of 45_decode R230, then the integrity check. -/
def decodeFailure (inp : InputRegs) (fmt : Format) : Option Code :=
  (decodeError inp fmt).or (if integrityOk inp fmt then none else some .integrity)

/-- The plan of a decoder (45_decode R234). -/
def decodePlan (inp : InputRegs) (fmt : Format) : Plan :=
  .checked (decodeFailure inp fmt) 0 fun _ =>
    .digits (unpack (decodedField inp fmt) inp.blockPinLen) inp.blockPinLen fmt.tag

/-- The plan of a dispatcher command: `onFormat` once the format is identified (46_dispatch R261,
R263). -/
def identifiedPlan (inp : InputRegs) (onFormat : Format → Plan) : Plan :=
  match inp.identify with
  | .error c => .fail c
  | .ok fmt => onFormat fmt

/-- The plan of a command; `NOP` and `CLR` produce no outputs and have none. -/
def commandPlan (i : Instr) (inp : InputRegs) : Option Plan :=
  match i with
  | .nop => none
  | .clr => none
  | .enc0 => some (.checked (encodeError inp (panArgBad inp)) 0 (encodedBlock inp .f0))
  | .enc1 => some (enc1Plan inp)
  | .enc2 => some (.checked (encodeError inp false) 0 (encodedBlock inp .f2))
  | .enc3 => some (.checked (encodeError inp (panArgBad inp)) (14 - inp.pinleni.toNat)
      (encodedBlock inp .f3))
  | .enc4 => some (.checked (encodeError inp false) 8 (encodedBlock inp .f4))
  | .dec0 => some (decodePlan inp .f0)
  | .dec1 => some (decodePlan inp .f1)
  | .dec2 => some (decodePlan inp .f2)
  | .dec3 => some (decodePlan inp .f3)
  | .dec4 => some (decodePlan inp .f4)
  | .getfmt => some (identifiedPlan inp fun fmt => .deliver 0 fun _ => .formatTag fmt.tag)
  | .decode => some (identifiedPlan inp (decodePlan inp))
  | .pack a b => some (.checked (packError inp) 0 fun _ =>
      .block8 (pack a inp.pini inp.pinleni b))
  | .unpack => some (.checked (packError inp) 0 fun _ =>
      .digits (unpack inp.blk8 inp.pinleni) (inp.pinleni &&& 0x0F) 0)
  | .drv64 => some (.checked (deriveError inp) 0 fun _ => .field8 inp.panField8)
  | .drv128 => some (.checked (deriveError inp) 0 fun _ => .field16 inp.panField16)
  | .xor => some (.checked (xorError inp) 0 fun _ => xorBlock inp)

/-! ### Every command carries out its plan -/

theorem checked_eq_outcome {s : State} {err : Option Code} {body : State → State}
    {out : List Byte → OutputRegs} (hbody : body s.clearOutputs = s.doneWith (out [])) :
    .next (s.checked err body) = (Plan.checked err 0 out).outcome s := by
  cases err with
  | some c => rfl
  | none => exact congrArg _ hbody

theorem checkedDraws_eq_outcome {s : State} {err : Option Code} {n : Nat}
    {body : List Byte → State → State} {out : List Byte → OutputRegs}
    (hbody : ∀ r u, u.inp = s.inp → body r u = u.doneWith (out r)) :
    s.checkedDraws err n body = (Plan.checked err n out).outcome s := by
  cases err with
  | some c => rfl
  | none =>
    cases hd : drawBytes n s.rng with
    | none => simp [State.checkedDraws, State.withDraws, Plan.checked, Plan.outcome, hd]
    | some p =>
      have hrun := hbody p.1 (s.clearOutputs.withRng p.2) rfl
      simp only [State.checkedDraws, State.withDraws, Plan.checked, Plan.outcome,
        State.clearOutputs_rng, hd, hrun]
      rfl

theorem enc0_eq_outcome (s : State) :
    execEnc0 s = (Plan.checked (encodeError s.inp (panArgBad s.inp)) 0
      (encodedBlock s.inp .f0)).outcome s :=
  checked_eq_outcome ((encodeBody0_eq s.clearOutputs).trans rfl)

theorem enc1_eq_outcome (s : State) : execEnc1 s = (enc1Plan s.inp).outcome s := by
  simp only [execEnc1, enc1Plan]
  split
  · exact checkedDraws_eq_outcome fun r u hu => by rw [finishPadded1_eq, hu]; rfl
  · exact checked_eq_outcome (by rw [finishPadded1_eq]; rfl)

theorem enc2_eq_outcome (s : State) :
    execEnc2 s = (Plan.checked (encodeError s.inp false) 0 (encodedBlock s.inp .f2)).outcome s := by
  refine checked_eq_outcome ?_
  simp only [pinField_buildPinField]
  rfl

theorem decodeBlock_eq_outcome (s : State) (fmt : Format) :
    .next (s.decodeBlock fmt) = (decodePlan s.inp fmt).outcome s := by
  rw [decodeBlock_eq, decodePlan, decodeFailure]
  cases decodeError s.inp fmt with
  | some c => rfl
  | none => cases integrityOk s.inp fmt <;> rfl

theorem getfmt_eq_outcome (s : State) :
    execGetfmt s =
      (identifiedPlan s.inp fun fmt => .deliver 0 fun _ => .formatTag fmt.tag).outcome s := by
  simp only [execGetfmt, identifiedPlan]
  cases s.inp.identify <;> rfl

theorem decode_eq_outcome (s : State) :
    execDecode s = (identifiedPlan s.inp (decodePlan s.inp)).outcome s := by
  simp only [execDecode, identifiedPlan]
  cases s.inp.identify with
  | error c => rfl
  | ok fmt =>
    simp only [decodeBlock_clearOutputs]
    exact decodeBlock_eq_outcome s fmt

theorem xor_eq_outcome (s : State) :
    execXor s = (Plan.checked (xorError s.inp) 0 fun _ => xorBlock s.inp).outcome s := by
  refine checked_eq_outcome ?_
  by_cases h : s.inp.blkleni = 8
  · simp only [xorBlock, State.clearOutputs_inp, h, if_true]; rfl
  · simp only [xorBlock, State.clearOutputs_inp, h, if_false]; rfl

/-- A command with a plan does what the plan says. -/
theorem exec_of_commandPlan {i : Instr} {s : State} {p : Plan} (h : commandPlan i s.inp = some p) :
    exec i s = p.outcome s := by
  cases i with
  | nop => cases h
  | clr => cases h
  | enc0 => cases h; exact enc0_eq_outcome s
  | enc1 => cases h; exact enc1_eq_outcome s
  | enc2 => cases h; exact enc2_eq_outcome s
  | enc3 =>
    cases h
    exact checkedDraws_eq_outcome fun r u hu => by rw [finishPadded3_eq, hu]; rfl
  | enc4 =>
    cases h
    exact checkedDraws_eq_outcome fun r u hu => by rw [finishHalves4_eq, hu]; rfl
  | dec0 => cases h; exact decodeBlock_eq_outcome s .f0
  | dec1 => cases h; exact decodeBlock_eq_outcome s .f1
  | dec2 => cases h; exact decodeBlock_eq_outcome s .f2
  | dec3 => cases h; exact decodeBlock_eq_outcome s .f3
  | dec4 => cases h; exact decodeBlock_eq_outcome s .f4
  | getfmt => cases h; exact getfmt_eq_outcome s
  | decode => cases h; exact decode_eq_outcome s
  | pack a b => cases h; exact checked_eq_outcome rfl
  | unpack => cases h; exact checked_eq_outcome rfl
  | drv64 => cases h; exact checked_eq_outcome rfl
  | drv128 => cases h; exact checked_eq_outcome rfl
  | xor => cases h; exact xor_eq_outcome s

/-- Only `NOP` and `CLR` have no plan. -/
theorem commandPlan_cases (i : Instr) (inp : InputRegs) :
    i = .nop ∨ i = .clr ∨ ∃ p, commandPlan i inp = some p := by
  cases i with
  | nop => exact .inl rfl
  | clr => exact .inr (.inl rfl)
  | _ => exact .inr (.inr ⟨_, rfl⟩)

end Sys2Proof.Machine
end

section
/-! SUPPORT. The invariant of every command boundary (spec 10_state R32 to R48, R55): what a plan delivers
is consistent, so every step keeps the invariant. -/

namespace Sys2Proof.Machine

/-! ### Consistent outputs -/

theorem zero_consistent : OutputRegs.zero.Consistent := by decide

theorem Code.toByte_le (c : Code) : c.toByte.toNat ≤ 7 := by
  cases c <;> decide

theorem Format.tag_le (fmt : Format) : fmt.tag.toNat ≤ 4 := by
  cases fmt <;> decide

/-- A failing command's outputs are consistent, whatever the code. -/
theorem failedWith_consistent (s : State) (c : Code) :
    (s.failedWith c.toByte).out.Consistent := by
  obtain ⟨_, _, hrest⟩ := zero_consistent
  exact ⟨c.toByte_le, fun _ => rfl, hrest⟩

section
variable (s : State)

theorem doneWith_block_consistent {X : Vector Byte 16} {len : Byte} (hlen : len = 8 ∨ len = 16)
    (hX : ∀ k : Fin 16, len.toNat ≤ k.val → X[k] = 0) :
    (s.doneWith { OutputRegs.zero with blko := X, blkleno := len }).out.Consistent := by
  obtain ⟨hstatus, _, hfmto, hpinleno, hpino, _, _, hfldleno, hfldo⟩ := zero_consistent
  exact ⟨hstatus, fun h => absurd rfl h, hfmto, hpinleno, hpino, .inr hlen, hX, hfldleno, hfldo⟩

theorem doneWith_field_consistent {X : Vector Byte 16} {len : Byte} (hlen : len = 8 ∨ len = 16)
    (hX : ∀ k : Fin 16, len.toNat ≤ k.val → X[k] = 0) :
    (s.doneWith { OutputRegs.zero with fldo := X, fldleno := len }).out.Consistent := by
  obtain ⟨hstatus, _, hfmto, hpinleno, hpino, hblkleno, hblko, _, _⟩ := zero_consistent
  exact ⟨hstatus, fun h => absurd rfl h, hfmto, hpinleno, hpino, hblkleno, hblko, .inr hlen, hX⟩

theorem getElem_widen8_beyond (F : Vector Byte 8) (k : Fin 16) (h : 8 ≤ k.val) :
    (widen8 F)[k] = 0 :=
  (byteAt_eq_getElem _ _ k.isLt).symm.trans (widen8_beyond F k h)

theorem block8_consistent (F : Vector Byte 8) : (s.doneWith (.block8 F)).out.Consistent :=
  doneWith_block_consistent s (.inl rfl) (getElem_widen8_beyond F)

theorem block16_consistent (G : Vector Byte 16) : (s.doneWith (.block16 G)).out.Consistent :=
  doneWith_block_consistent s (.inr rfl) fun k h => absurd k.isLt (Nat.not_lt.mpr h)

theorem field8_consistent (F : Vector Byte 8) : (s.doneWith (.field8 F)).out.Consistent :=
  doneWith_field_consistent s (.inl rfl) (getElem_widen8_beyond F)

theorem field16_consistent (G : Vector Byte 16) : (s.doneWith (.field16 G)).out.Consistent :=
  doneWith_field_consistent s (.inr rfl) fun k h => absurd k.isLt (Nat.not_lt.mpr h)

theorem formatTag_consistent (fmt : Format) :
    (s.doneWith (.formatTag fmt.tag)).out.Consistent := by
  obtain ⟨hstatus, _, _, hrest⟩ := zero_consistent
  exact ⟨hstatus, fun h => absurd rfl h, fmt.tag_le, hrest⟩

/-- Unpacked digits are consistent outputs when the length they go with is the masked one. -/
theorem digits_consistent (X : Vector Byte 8) {src len : Byte} {fmt : Nibble}
    (hlen : len.toNat ≤ 12) (hmask : maskLen src = len.toNat) (hfmt : fmt.toNat ≤ 4) :
    (s.doneWith (.digits (unpack X src) len fmt)).out.Consistent := by
  obtain ⟨hstatus, _, _, _, _, hrest⟩ := zero_consistent
  refine ⟨hstatus, fun h => absurd rfl h, hfmt, hlen, fun k hk => ?_, hrest⟩
  change len.toNat ≤ k.val at hk
  simp only [State.doneWith, OutputRegs.digits, Fin.getElem_fin, Vector.getElem_ofFn]
  rw [unpack_getD, hmask, if_neg (by omega)]

theorem encodedBlock_consistent (inp : InputRegs) (fmt : Format) (S : List Byte) :
    (s.doneWith (encodedBlock inp fmt S)).out.Consistent := by
  cases fmt with
  | f4 => exact block16_consistent s _
  | _ => exact block8_consistent s _

theorem xorBlock_consistent (inp : InputRegs) : (s.doneWith (xorBlock inp)).out.Consistent := by
  unfold xorBlock
  split
  · exact block8_consistent s _
  · exact block16_consistent s _

end

/-! ### A plan keeps the invariant -/

/-- Whatever the plan delivers is consistent. -/
def Plan.Sound (p : Plan) : Prop :=
  ∀ n out, p = .deliver n out → ∀ (s : State) (r : List Byte), (s.doneWith (out r)).out.Consistent

theorem fail_sound (c : Code) : (Plan.fail c).Sound := by
  intro n out h
  cases h

theorem deliver_sound {n : Nat} {out : List Byte → OutputRegs}
    (h : ∀ (s : State) (r : List Byte), (s.doneWith (out r)).out.Consistent) :
    (Plan.deliver n out).Sound := by
  intro _ _ heq
  cases heq
  exact h

/-- A checked plan is sound if what it delivers once the checks have passed is consistent. -/
theorem checked_sound {err : Option Code} {n : Nat} {out : List Byte → OutputRegs}
    (h : err = none → ∀ (s : State) (r : List Byte), (s.doneWith (out r)).out.Consistent) :
    (Plan.checked err n out).Sound := by
  cases err with
  | some c => exact fail_sound c
  | none => exact deliver_sound (h rfl)

theorem enc1Plan_sound (inp : InputRegs) : (enc1Plan inp).Sound := by
  unfold enc1Plan
  split
  · exact checked_sound fun _ s r => encodedBlock_consistent s inp .f1 r
  · exact checked_sound fun _ s _ => encodedBlock_consistent s inp .f1 _

theorem blockPinLen_toNat (inp : InputRegs) : inp.blockPinLen.toNat = inp.lengthNibble.toNat := by
  simp only [InputRegs.blockPinLen, BitVec.toNat_setWidth]
  omega

/-- A decoder that fails no check has read a PIN length of at most 12 (45_decode R230). -/
theorem lengthNibble_le_of_decodeFailure {inp : InputRegs} {fmt : Format}
    (h : decodeFailure inp fmt = none) : inp.lengthNibble.toNat ≤ 12 := by
  obtain ⟨hchecks, _⟩ := Option.or_eq_none_iff.mp h
  rw [decodeError_eq inp fmt _ Iff.rfl, ← lengthNibble_eq] at hchecks
  split_ifs at hchecks with _ _ _ hlen
  omega

theorem decodePlan_sound (inp : InputRegs) (fmt : Format) : (decodePlan inp fmt).Sound := by
  refine checked_sound fun hok s _ => digits_consistent s _ ?_ ?_ fmt.tag_le
  · rw [blockPinLen_toNat]
    exact lengthNibble_le_of_decodeFailure hok
  · rw [maskLen_eq, blockPinLen_toNat]
    omega

theorem unpackPlan_sound (inp : InputRegs) :
    (Plan.checked (packError inp) 0 fun _ =>
      .digits (unpack inp.blk8 inp.pinleni) (inp.pinleni &&& 0x0F) 0).Sound := by
  refine checked_sound fun hok s _ => digits_consistent s _ ?_ rfl (by decide)
  change maskLen inp.pinleni ≤ 12
  rw [packError_eq, ← maskLen_eq] at hok
  split_ifs at hok with hlen
  exact Nat.not_lt.mp hlen

theorem identifiedPlan_sound {inp : InputRegs} {onFormat : Format → Plan}
    (h : ∀ fmt, (onFormat fmt).Sound) : (identifiedPlan inp onFormat).Sound := by
  unfold identifiedPlan
  split
  · exact fail_sound _
  · exact h _

theorem commandPlan_sound {i : Instr} {inp : InputRegs} {p : Plan}
    (h : commandPlan i inp = some p) : p.Sound := by
  cases i with
  | nop => cases h
  | clr => cases h
  | enc0 => cases h; exact checked_sound fun _ s r => encodedBlock_consistent s inp .f0 r
  | enc1 => cases h; exact enc1Plan_sound inp
  | enc2 => cases h; exact checked_sound fun _ s r => encodedBlock_consistent s inp .f2 r
  | enc3 => cases h; exact checked_sound fun _ s r => encodedBlock_consistent s inp .f3 r
  | enc4 => cases h; exact checked_sound fun _ s r => encodedBlock_consistent s inp .f4 r
  | dec0 => cases h; exact decodePlan_sound inp .f0
  | dec1 => cases h; exact decodePlan_sound inp .f1
  | dec2 => cases h; exact decodePlan_sound inp .f2
  | dec3 => cases h; exact decodePlan_sound inp .f3
  | dec4 => cases h; exact decodePlan_sound inp .f4
  | getfmt =>
    cases h
    exact identifiedPlan_sound fun fmt => deliver_sound fun s _ => formatTag_consistent s fmt
  | decode => cases h; exact identifiedPlan_sound (decodePlan_sound inp)
  | pack a b => cases h; exact checked_sound fun _ s _ => block8_consistent s _
  | unpack => cases h; exact unpackPlan_sound inp
  | drv64 => cases h; exact checked_sound fun _ s _ => field8_consistent s _
  | drv128 => cases h; exact checked_sound fun _ s _ => field16_consistent s _
  | xor => cases h; exact checked_sound fun _ s _ => xorBlock_consistent s inp

/-- A sound plan ends in a state that meets the invariant, from every state. -/
theorem outcome_inv {p : Plan} {s t : State} (hp : p.Sound) (h : p.outcome s = .next t) :
    t.Inv := by
  cases p with
  | fail c => cases h; exact ⟨rfl, failedWith_consistent s c⟩
  | deliver n out =>
    simp only [Plan.outcome] at h
    split at h
    · cases h
    · cases h
      exact ⟨rfl, hp n out rfl s _⟩

/-! ### The invariant, step by step -/

theorem zeroRegisters_inv (s : State) : s.zeroRegisters.Inv := ⟨rfl, zero_consistent⟩

theorem exec_inv {i : Instr} {s t : State} (hs : s.Inv) (h : exec i s = .next t) : t.Inv := by
  rcases commandPlan_cases i s.inp with rfl | rfl | ⟨p, hp⟩
  · cases h; exact hs
  · cases h; exact zeroRegisters_inv s
  · rw [exec_of_commandPlan hp] at h
    exact outcome_inv (commandPlan_sound hp) h

theorem runWord_inv {cw : Word} {s t : State} (hs : s.Inv) (h : runWord exec cw s = .next t) :
    t.Inv := by
  unfold runWord at h
  split at h
  · exact exec_inv hs h
  · cases h; exact ⟨rfl, failedWith_consistent s .illcmd⟩

/-- The host writes no output register and no scratch (20_memory R76). -/
theorem writeData_inv {s : State} (hs : s.Inv) (idx : Index) (v : Word) : (s.writeData idx v).Inv := by
  unfold State.writeData
  split <;> exact hs

theorem hostWrite_inv {idx : Index} {v : Word} {s t : State} (hs : s.Inv)
    (h : hostWrite exec idx v s = .next t) : t.Inv := by
  unfold hostWrite at h
  split at h
  · exact runWord_inv hs h
  · cases h; exact writeData_inv hs idx v

theorem portOp_inv {op : PortOp} {s t : State} (hs : s.Inv) (h : portOp exec op s = .next t) :
    t.Inv := by
  cases op with
  | write idx v => exact hostWrite_inv hs h
  | copy idx => exact hostWrite_inv hs h
  | read idx => cases h; exact hs
  | expect idx v => cases h; exact hs
  | reset => cases h; exact zeroRegisters_inv s
  | resetDuring cw requests => cases h; exact zeroRegisters_inv s
  | supply bytes => cases h; exact hs

/-- Settles O18: by the cases of the script and of the port operation; a command other than `NOP` and
`CLR` establishes the invariant from any state, because its plan is sound. -/
theorem stepKeepsTheInvariant : Obligations.StepKeepsTheInvariant := by
  intro s t hs h
  cases hscript : s.port.script with
  | nil =>
    rw [step_of_script_nil hscript] at h
    cases h
    exact hs
  | cons op rest =>
    rw [step_of_script hscript] at h
    exact portOp_inv (s := s.withScript rest) hs h

/-- Settles O17: reset leaves the registers all zero. -/
theorem resetMeetsTheInvariant : Obligations.ResetMeetsTheInvariant := zeroRegisters_inv State.reset

end Sys2Proof.Machine
end

section
/-! SUPPORT. What commands leave unchanged and what they do not read (spec 10_state R30, R51, R56): the frame,
independence of earlier results, and independence of the registers that are no operands. -/

namespace Sys2Proof.Machine

/-! ### Frame -/

/-- The frame of a command that ends as `Ends` says. -/
theorem ends_frame {draws : Bool} {s t : State} (h : Ends draws s t) :
    t.port = s.port ∧ t.inp = s.inp ∧ (draws = false → t.rng = s.rng) ∧ t.scratch = .zero := by
  rcases h with ⟨c, rfl⟩ | ⟨o, g, rfl, hrng, _⟩
  · exact ⟨rfl, rfl, fun _ => rfl, rfl⟩
  · exact ⟨rfl, rfl, hrng, rfl⟩

/-- Settles O21: by the three ways a command ends. -/
theorem commandFrame : Obligations.CommandFrame := by
  intro i s t h
  have hnop : i = .nop → t = s := by
    rintro rfl
    cases h
    rfl
  rcases exec_next_cases h with ⟨rfl, rfl⟩ | ⟨rfl, rfl⟩ | hends
  · exact ⟨rfl, fun _ => rfl, fun _ => rfl, fun hn => absurd rfl hn, hnop⟩
  · exact ⟨rfl, fun hc => absurd rfl hc, fun _ => rfl, fun _ => rfl, hnop⟩
  · obtain ⟨hport, hinp, hrng, hscratch⟩ := ends_frame hends
    exact ⟨hport, fun _ => hinp, hrng, fun _ => hscratch, hnop⟩

/-! ### Earlier results -/

/-- A plan overwrites every output register and scratch, and reads none. -/
theorem outcome_withResults (p : Plan) (s : State) (o : OutputRegs) (c : ScratchRegs) :
    p.outcome { s with out := o, scratch := c } = p.outcome s := by
  cases p with
  | fail code => rfl
  | deliver n out => rfl

/-- Settles O25: the plan is a function of the inputs alone, and carrying it out overwrites every earlier
result. -/
theorem commandIgnoresEarlierResults : Obligations.CommandIgnoresEarlierResults := by
  intro i s o c hnop
  rcases commandPlan_cases i s.inp with rfl | rfl | ⟨p, hp⟩
  · exact absurd rfl hnop
  · rfl
  · rw [exec_of_commandPlan hp, ← outcome_withResults p s o c]
    exact exec_of_commandPlan hp

/-! ### Operands -/

theorem nib_congr {n : Nat} {X Y : Vector Byte n} {k : Nat} (h : byteAt X (k / 2) = byteAt Y (k / 2)) :
    nib X k = nib Y k := by
  simp only [nib, Nat.shiftRight_eq_div_pow, Nat.pow_one, h]

/-- `pack` reads the digits below the masked length, which is at most the length (40_packer R131). -/
theorem pack_congr {x y : InputRegs} (h : samePin x y) (fmt fill : Nibble) :
    pack fmt x.pini x.pinleni fill = pack fmt y.pini y.pinleni fill := by
  obtain ⟨hlen, hdigits⟩ := h
  refine vector_ext_nib fun k hk => ?_
  rw [nib_pack _ _ _ _ _ hk, nib_pack _ _ _ _ _ hk, ← hlen]
  unfold fieldNibble
  split_ifs with h0 h1 hdigit
  · rfl
  · rfl
  · exact hdigits (k - 2) (by omega)
  · rfl

section pan
variable {P Q : Vector Byte 10} {n : Nat} (h : ∀ k, k < n → byteAt P k = byteAt Q k)
include h

theorem nib_congr_below {k : Nat} (hk : k < 2 * n) : nib P k = nib Q k :=
  nib_congr (h _ (by omega))

theorem derive64_congr : derive64 P n = derive64 Q n := by
  have hdigits : nonPadDigits P n = nonPadDigits Q n := by
    have hnibs : (List.range (2 * n)).map (nib P) = (List.range (2 * n)).map (nib Q) :=
      List.map_congr_left fun k hk => nib_congr_below h (List.mem_range.mp hk)
    rw [nonPadDigits, nonPadDigits, hnibs]
  refine vector_ext_nib fun k hk => ?_
  rw [nib_derive64 _ _ _ hk, nib_derive64 _ _ _ hk, panNibble, panNibble, hdigits]

theorem digitCount_congr {i : Nat} (hi : i ≤ 2 * n) : digitCount P i = digitCount Q i := by
  induction i with
  | zero => rfl
  | succ i ih => rw [digitCount, digitCount, nib_congr_below h hi, ih (by omega)]

/-- `derive128` reads nibbles below the digit count, which is at most twice the length. -/
theorem derive128_congr : derive128 P n = derive128 Q n := by
  have hcount := digitCount_le P (2 * n)
  refine vector_ext_nib fun k hk => ?_
  rw [nib_derive128 _ _ _ hk, nib_derive128 _ _ _ hk, ← digitCount_congr h le_rfl]
  split_ifs with _ hin _ hin
  · exact nib_congr_below h (by omega)
  · rfl
  · rfl
  · exact nib_congr_below h (by omega)
  · rfl

end pan

theorem panField8_congr {x y : InputRegs} (h : samePan x y) : x.panField8 = y.panField8 := by
  rw [InputRegs.panField8, InputRegs.panField8, ← h.1, derive64_congr h.2]

theorem panField16_congr {x y : InputRegs} (h : samePan x y) : x.panField16 = y.panField16 := by
  rw [InputRegs.panField16, InputRegs.panField16, ← h.1, derive128_congr h.2]

theorem panArgBad_congr {x y : InputRegs} (h : samePan x y) : panArgBad x = panArgBad y := by
  rw [panArgBad, panArgBad, h.1]

theorem encodeError_congr {x y : InputRegs} (h : samePin x y) (argBad : Bool) :
    encodeError x argBad = encodeError y argBad := by
  rw [encodeError, encodeError, h.1]

/-- The nonce is read from its end, so below its length (42_padding R174). -/
theorem nonceSource_congr {x y : InputRegs} (h : sameNonce x y) (hne : x.noncelen ≠ 0) (cap : Nat) :
    nonceSource x cap = nonceSource y cap := by
  obtain ⟨hlen, hbytes⟩ := h
  have hpos : x.noncelen.toNat ≠ 0 := fun h0 => hne ((eq_zero_iff_toNat _).mpr h0)
  refine List.map_congr_left fun j _ => ?_
  rw [← hlen]
  exact hbytes _ (by omega)

/-- An encoder's block depends on the PIN operand, and on the PAN operand for formats 0 and 3 only. -/
theorem encodedBlock_congr {x y : InputRegs} {fmt : Format} (h : samePin x y)
    (hpan : fmt.usesPan = true → samePan x y) : encodedBlock x fmt = encodedBlock y fmt := by
  funext S
  cases fmt with
  | f0 => rw [encodedBlock, encodedBlock, pack_congr h, panField8_congr (hpan rfl)]
  | f1 => rw [encodedBlock, encodedBlock, pack_congr h, h.1]
  | f2 => rw [encodedBlock, encodedBlock, pack_congr h]
  | f3 => rw [encodedBlock, encodedBlock, pack_congr h, panField8_congr (hpan rfl), h.1]
  | f4 => rw [encodedBlock, encodedBlock, pack_congr h]

theorem enc1Plan_congr {x y : InputRegs} (hpin : samePin x y) (hnonce : sameNonce x y) :
    enc1Plan x = enc1Plan y := by
  have herr : encode1Error x = encode1Error y := by
    simp only [encode1Error, encodeError_congr hpin, hpin.1, hnonce.1]
  have hblock : encodedBlock x .f1 = encodedBlock y .f1 := encodedBlock_congr hpin nofun
  unfold enc1Plan
  rw [herr, hblock, ← hpin.1, ← hnonce.1]
  split_ifs with h0
  · rfl
  · rw [nonceSource_congr hnonce h0]

theorem first8_congr {X Y : Vector Byte 16} (h : ∀ k, k < 8 → byteAt X k = byteAt Y k) :
    first8 X = first8 Y := by
  refine vector_ext_byteAt fun k hk => ?_
  rw [byteAt_first8 _ _ hk, byteAt_first8 _ _ hk, h k hk]

section block
variable {x y : InputRegs} {hi : Nat} (h : sameBlock 0 hi x y)
include h

theorem firstByte_congr (hhi : 0 < hi) : byteAt x.blki 0 = byteAt y.blki 0 := h.2 0 le_rfl hhi

theorem blk8_congr (hhi : 8 ≤ hi) : x.blk8 = y.blk8 :=
  first8_congr fun k hk => h.2 k (Nat.zero_le k) (by omega)

theorem identify_congr (hhi : 0 < hi) : x.identify = y.identify := by
  rw [InputRegs.identify, InputRegs.identify, firstByte_congr h hhi, h.1]

end block

section decoder
variable {x y : InputRegs} {fmt : Format} (h : sameBlock 0 8 x y)
  (hpan : fmt.usesPan = true → samePan x y)
include h

theorem lengthNibble_congr : x.lengthNibble = y.lengthNibble :=
  congrArg loNib (firstByte_congr h (by omega))

theorem controlNibble_congr : x.controlNibble = y.controlNibble :=
  congrArg hiNib (firstByte_congr h (by omega))

include hpan

theorem decodedField_congr : decodedField x fmt = decodedField y fmt := by
  unfold decodedField
  split_ifs with hp
  · rw [blk8_congr h le_rfl, panField8_congr (hpan hp)]
  · exact blk8_congr h le_rfl

theorem decodeError_congr : decodeError x fmt = decodeError y fmt := by
  have hbad : (fmt.usesPan && panArgBad x) = (fmt.usesPan && panArgBad y) := by
    cases hp : fmt.usesPan with
    | false => rfl
    | true => rw [panArgBad_congr (hpan hp)]
  rw [decodeError, decodeError, hbad, h.1, lengthNibble_congr h, controlNibble_congr h]

theorem integrityOk_congr : integrityOk x fmt = integrityOk y fmt := by
  have hfield := decodedField_congr h hpan
  cases fmt <;>
    simp only [integrityOk, firstByteOk, hfield, lengthNibble_congr h,
      firstByte_congr h (Nat.zero_lt_succ 7)]

theorem decodePlan_congr : decodePlan x fmt = decodePlan y fmt := by
  have hlen : x.blockPinLen = y.blockPinLen :=
    congrArg (BitVec.setWidth 8) (lengthNibble_congr h)
  simp only [decodePlan, decodeFailure, decodeError_congr h hpan, integrityOk_congr h hpan,
    decodedField_congr h hpan, hlen]

end decoder

/-- The identified format is the one whose tag is the control nibble (46_dispatch R260). -/
theorem controlNibble_of_identify {inp : InputRegs} {fmt : Format} (h : inp.identify = .ok fmt) :
    nib inp.blki 0 = fmt.tag := by
  rw [identify_eq] at h
  split_ifs at h <;> cases h <;> assumption

theorem tag_of_usesPan {fmt : Format} (h : fmt.usesPan = true) : fmt.tag = 0 ∨ fmt.tag = 3 := by
  cases fmt with
  | f0 => exact .inl rfl
  | f3 => exact .inr rfl
  | _ => cases h

theorem decodeDispatch_congr {x y : InputRegs} (h : sameBlock 0 8 x y)
    (hpan : nib x.blki 0 = 0 ∨ nib x.blki 0 = 3 → samePan x y) :
    identifiedPlan x (decodePlan x) = identifiedPlan y (decodePlan y) := by
  unfold identifiedPlan
  rw [← identify_congr h (by omega)]
  cases hid : x.identify with
  | error c => rfl
  | ok fmt =>
    refine decodePlan_congr h fun hp => hpan ?_
    rw [controlNibble_of_identify hid]
    exact tag_of_usesPan hp

/-- `UNPACK` does not look at the first byte (40_packer R135). -/
theorem unpack_congr {X Y : Vector Byte 8} (h : ∀ k, 1 ≤ k → k < 8 → byteAt X k = byteAt Y k)
    (len : Byte) : unpack X len = unpack Y len := by
  refine List.map_congr_left fun k _ => ?_
  by_cases hk : (2 + k) / 2 < 8
  · exact nib_congr (h _ (by omega) hk)
  · rw [nib_beyond _ _ (by omega), nib_beyond _ _ (by omega)]

theorem checked_congr {err : Option Code} {n : Nat} {out out' : List Byte → OutputRegs}
    (h : err = none → out = out') : Plan.checked err n out = Plan.checked err n out' := by
  cases err with
  | some c => rfl
  | none => rw [h rfl]

theorem blkleni_of_xorError_none {inp : InputRegs} (h : xorError inp = none) :
    inp.blkleni = 8 ∨ inp.blkleni = 16 := by
  unfold xorError at h
  split_ifs at h with _ hsize
  simp only [Bool.and_eq_true, bne_iff_ne] at hsize
  tauto

/-- Past its check `XOR` reads 8 or 16 bytes of each operand, so none beyond the length (43_combiner
R192). -/
theorem xorBlock_congr {x y : InputRegs} (hlen : x.blkleni = 8 ∨ x.blkleni = 16)
    (hblk : sameBlock 0 x.blkleni.toNat x y)
    (hfld : ∀ k, k < x.blkleni.toNat → byteAt x.fldi k = byteAt y.fldi k) :
    xorBlock x = xorBlock y := by
  unfold xorBlock
  rw [← hblk.1]
  rcases hlen with h8 | h16
  · rw [h8] at hblk hfld
    rw [if_pos h8, if_pos h8, blk8_congr hblk le_rfl, first8_congr hfld]
  · have hne : x.blkleni ≠ 8 := by rw [h16]; decide
    rw [h16] at hblk hfld
    have hblki : x.blki = y.blki := vector_ext_byteAt fun k hk => hblk.2 k (Nat.zero_le k) hk
    rw [if_neg hne, if_neg hne, hblki, vector_ext_byteAt hfld]

theorem xorPlan_congr {x y : InputRegs} (hblk : sameBlock 0 x.blkleni.toNat x y)
    (hfld : ∀ k, k < x.blkleni.toNat → byteAt x.fldi k = byteAt y.fldi k) :
    commandPlan .xor x = commandPlan .xor y := by
  have herr : xorError x = xorError y := by rw [xorError, xorError, hblk.1]
  simp only [commandPlan, ← herr]
  exact congrArg some (checked_congr fun hok =>
    funext fun _ => xorBlock_congr (blkleni_of_xorError_none hok) hblk hfld)

/-- The plan of a command depends on its operands alone (10_state R56). -/
theorem commandPlan_congr {i : Instr} {x y : InputRegs} (h : sameOperands i x y) :
    commandPlan i x = commandPlan i y := by
  cases i with
  | nop => rfl
  | clr => rfl
  | enc0 =>
    obtain ⟨hpin, hpan⟩ := h
    rw [commandPlan, commandPlan, panArgBad_congr hpan, encodeError_congr hpin,
      encodedBlock_congr hpin fun _ => hpan]
  | enc1 =>
    obtain ⟨hpin, hnonce⟩ := h
    exact congrArg some (enc1Plan_congr hpin hnonce)
  | enc2 =>
    rw [commandPlan, commandPlan, encodeError_congr h, encodedBlock_congr (fmt := .f2) h nofun]
  | enc3 =>
    obtain ⟨hpin, hpan⟩ := h
    rw [commandPlan, commandPlan, panArgBad_congr hpan, encodeError_congr hpin,
      encodedBlock_congr hpin fun _ => hpan, hpin.1]
  | enc4 =>
    rw [commandPlan, commandPlan, encodeError_congr h, encodedBlock_congr (fmt := .f4) h nofun]
  | dec0 =>
    obtain ⟨hblk, hpan⟩ := h
    exact congrArg some (decodePlan_congr hblk fun _ => hpan)
  | dec1 => exact congrArg some (decodePlan_congr h nofun)
  | dec2 => exact congrArg some (decodePlan_congr h nofun)
  | dec3 =>
    obtain ⟨hblk, hpan⟩ := h
    exact congrArg some (decodePlan_congr hblk fun _ => hpan)
  | dec4 => exact congrArg some (decodePlan_congr h nofun)
  | getfmt =>
    rw [commandPlan, commandPlan, identifiedPlan, identifiedPlan, identify_congr h Nat.one_pos]
  | decode =>
    obtain ⟨hblk, hpan⟩ := h
    exact congrArg some (decodeDispatch_congr hblk hpan)
  | pack a b => rw [commandPlan, commandPlan, packError, packError, pack_congr h, h.1]
  | unpack =>
    obtain ⟨hlen, hbytes⟩ := h
    have hdigits : unpack x.blk8 x.pinleni = unpack y.blk8 x.pinleni :=
      unpack_congr (fun k hlo hhi => by
        rw [InputRegs.blk8, InputRegs.blk8, byteAt_first8 _ _ hhi, byteAt_first8 _ _ hhi,
          hbytes k hlo hhi]) _
    rw [commandPlan, commandPlan, packError, packError, hdigits, hlen]
  | drv64 =>
    rw [commandPlan, commandPlan, deriveError, deriveError, panArgBad_congr h, panField8_congr h]
  | drv128 =>
    rw [commandPlan, commandPlan, deriveError, deriveError, panArgBad_congr h, panField16_congr h]
  | xor =>
    obtain ⟨hblk, hfld⟩ := h
    exact xorPlan_congr hblk hfld

/-! ### A command reads only its operands -/

/-- A plan carried out leaves the inputs alone and reads none: other inputs go through it unchanged. -/
theorem outcome_withInputs (p : Plan) (s : State) (x : InputRegs) :
    (∀ t, p.outcome s = .next t → p.outcome { s with inp := x } = .next { t with inp := x }) ∧
    (∀ f, p.outcome s = .fault f → p.outcome { s with inp := x } = .fault f) := by
  cases p with
  | fail c => exact ⟨fun t h => by cases h; rfl, nofun⟩
  | deliver n out =>
    simp only [Plan.outcome]
    cases drawBytes n s.rng with
    | none => exact ⟨nofun, fun f h => h⟩
    | some d => exact ⟨fun t h => by cases h; rfl, nofun⟩

/-- Settles O26: inputs that agree on the operands give the same plan, and carrying it out reads no
input. -/
theorem commandReadsOnlyItsOperands : Obligations.CommandReadsOnlyItsOperands := by
  intro i s x hclr hops
  rcases commandPlan_cases i s.inp with rfl | rfl | ⟨p, hp⟩
  · exact ⟨fun t h => by cases h; rfl, nofun⟩
  · exact absurd rfl hclr
  · have hp' : commandPlan i x = some p := (commandPlan_congr hops).symm.trans hp
    rw [exec_of_commandPlan hp, exec_of_commandPlan (s := { s with inp := x }) hp']
    exact outcome_withInputs p s x

end Sys2Proof.Machine
end

section
/-! SUPPORT. The host port (spec 20_memory R74 to R80): which indices are unmapped, what a write and a read
do at a register's index and at an unmapped one, and the repetition of a command that drew nothing. -/

namespace Sys2Proof.Machine

/-! ### The index map -/

/-- Two registers have different indices (10_state R49). -/
theorem index_injective {r r' : Reg} (h : r.index = r'.index) : r = r' := by
  have hreg : some r = some r' := by rw [← regAt_index r, h, regAt_index r']
  exact Option.some.inj hreg

theorem index_eq_ofNat {idx : Index} {n : Nat} (h : idx.toNat = n) : idx = BitVec.ofNat 8 n := by
  rw [← h, BitVec.ofNat_toNat, BitVec.setWidth_eq]

theorem element_eq_none_iff (base n i : Nat) :
    element base n i = none ↔ ¬(base ≤ i ∧ i - base < n) := by
  unfold element
  split_ifs with h
  · exact iff_of_false nofun (not_not_intro h)
  · exact iff_of_true rfl h

/-- The arrays cover 0x10 to 0x8F but for the gaps behind the four shorter than 16 (10_state R49). -/
theorem arrayReg_eq_none_iff (i : Nat) :
    arrayReg i = none ↔
      i < 0x10 ∨ (0x1C ≤ i ∧ i < 0x20) ∨ (0x2A ≤ i ∧ i < 0x30) ∨ (0x38 ≤ i ∧ i < 0x40) ∨
      (0x6C ≤ i ∧ i < 0x70) ∨ 0x90 ≤ i := by
  unfold arrayReg
  split
  case h_9 =>
    refine iff_of_true rfl ?_
    simp only [imp_false] at *
    omega
  all_goals
    rw [Option.map_eq_none_iff, element_eq_none_iff]
    omega

/-- The unmapped indices, listed (20_memory R77): those of the arrays' gaps, and those below 0x10 that
no single register has. -/
theorem regAt_eq_none_iff_ranges (idx : Index) :
    regAt idx = none ↔
      (0x06 ≤ idx.toNat ∧ idx.toNat ≤ 0x07) ∨ (0x0C ≤ idx.toNat ∧ idx.toNat ≤ 0x0F) ∨
      (0x1C ≤ idx.toNat ∧ idx.toNat ≤ 0x1F) ∨ (0x2A ≤ idx.toNat ∧ idx.toNat ≤ 0x2F) ∨
      (0x38 ≤ idx.toNat ∧ idx.toNat ≤ 0x3F) ∨ (0x6C ≤ idx.toNat ∧ idx.toNat ≤ 0x6F) ∨
      0x90 ≤ idx.toNat := by
  unfold regAt
  split
  case h_11 =>
    simp only [imp_false] at *
    rw [arrayReg_eq_none_iff]
    omega
  all_goals
    refine iff_of_false nofun ?_
    omega

/-! ### Port operations on the registers -/

section
variable (s : State) (r : Reg) (v : Word)

theorem writeData_index : s.writeData r.index v = { s with inp := s.inp.writeReg r v } := by
  rw [State.writeData, regAt_index]

theorem hostRead_index : s.hostRead r.index = s.readReg r := by
  rw [State.hostRead, regAt_index]

end

section
variable {idx : Index} (h : ∀ r : Reg, idx ≠ r.index)
include h

theorem writeData_of_unmapped (s : State) (v : Word) : s.writeData idx v = s := by
  rw [State.writeData, (regAt_eq_none_iff idx).mpr h]

theorem hostRead_of_unmapped (s : State) : s.hostRead idx = 0 := by
  rw [State.hostRead, (regAt_eq_none_iff idx).mpr h]

end

theorem writeReg_of_readOnly (inp : InputRegs) {r : Reg} (h : r.access = .readOnly) (v : Word) :
    inp.writeReg r v = inp := by
  cases r with
  | pinleni | panlen | noncelen | blkleni | pini _ | pan _ | nonce _ | blki _ | fldi _ => cases h
  | _ => rfl

theorem index_ne_cmd {r : Reg} (h : r.access ≠ .writeOnly) : r.index ≠ Reg.cmd.index := by
  intro hidx
  rw [index_injective hidx] at h
  exact h rfl

/-- Zero extension of a value's low `w` bits. -/
theorem toNat_setWidth_setWidth (v : Word) {w : Nat} (hw : w ≤ 16) :
    ((v.setWidth w).setWidth 16).toNat = v.toNat % 2 ^ w := by
  have hpow : 2 ^ w ≤ 2 ^ 16 := Nat.pow_le_pow_right (by omega) hw
  have hlt : v.toNat % 2 ^ w < 2 ^ w := Nat.mod_lt _ (Nat.two_pow_pos w)
  rw [BitVec.toNat_setWidth, BitVec.toNat_setWidth, Nat.mod_eq_of_lt (by omega)]

section
variable {n w : Nat} (X : Vector (BitVec w) n)

theorem zext_getElem_set_self (k : Fin n) (v : Word) (hw : w ≤ 16) :
    ((X.set k (v.setWidth w))[k].setWidth 16).toNat = v.toNat % 2 ^ w := by
  rw [Fin.getElem_fin, Vector.getElem_set_self, toNat_setWidth_setWidth v hw]

theorem zext_getElem_set_ne {j k : Fin n} (h : j ≠ k) (b : BitVec w) :
    (X.set k b)[j].setWidth 16 = X[j].setWidth 16 := by
  rw [Fin.getElem_fin, Fin.getElem_fin, Vector.getElem_set_ne _ _ (Fin.val_ne_of_ne h.symm)]

end

section
variable (s : State) {r : Reg} (hr : r.access = .readWrite) (v : Word)
include hr

/-- An input register takes the low bits of a value that fit its width (20_memory R74). -/
theorem readReg_writeReg_same :
    (State.readReg { s with inp := s.inp.writeReg r v } r).toNat = v.toNat % 2 ^ r.width := by
  cases r with
  | pinleni | panlen | noncelen | blkleni => exact toNat_setWidth_setWidth v (by decide)
  | pini k | pan k | nonce k | blki k | fldi k => exact zext_getElem_set_self _ k v (by decide)
  | _ => cases hr

/-- A write to one register is not seen in another (20_memory R74). -/
theorem readReg_writeReg_ne {r' : Reg} (h : r' ≠ r) :
    State.readReg { s with inp := s.inp.writeReg r v } r' = s.readReg r' := by
  cases r with
  | pinleni => cases r' with
    | pinleni => exact absurd rfl h
    | _ => rfl
  | panlen => cases r' with
    | panlen => exact absurd rfl h
    | _ => rfl
  | noncelen => cases r' with
    | noncelen => exact absurd rfl h
    | _ => rfl
  | blkleni => cases r' with
    | blkleni => exact absurd rfl h
    | _ => rfl
  | pini k => cases r' with
    | pini j => exact zext_getElem_set_ne _ (ne_of_apply_ne Reg.pini h) _
    | _ => rfl
  | pan k => cases r' with
    | pan j => exact zext_getElem_set_ne _ (ne_of_apply_ne Reg.pan h) _
    | _ => rfl
  | nonce k => cases r' with
    | nonce j => exact zext_getElem_set_ne _ (ne_of_apply_ne Reg.nonce h) _
    | _ => rfl
  | blki k => cases r' with
    | blki j => exact zext_getElem_set_ne _ (ne_of_apply_ne Reg.blki h) _
    | _ => rfl
  | fldi k => cases r' with
    | fldi j => exact zext_getElem_set_ne _ (ne_of_apply_ne Reg.fldi h) _
    | _ => rfl
  | _ => cases hr

end

/-! ### Steps of the port -/

theorem runWord_of_decodes (ex : Instr → State → Result) {cw : Word} {i : Instr}
    (h : decodeWord cw = .ok i) (s : State) : runWord ex cw s = ex i s := by
  rw [runWord, h]

theorem runWord_of_illegal (ex : Instr → State → Result) {cw : Word} {e : Illegal}
    (h : decodeWord cw = .error e) (s : State) : runWord ex cw s = .next (s.failedWith 0x07) := by
  rw [runWord, h]
  rfl

section
variable {s : State} {idx : Index} {v : Word} {rest : List PortOp}

theorem step_of_cmdWrite (h : s.port.script = .write 0x00 v :: rest) :
    step s = runWord exec v (s.withScript rest) := by
  rw [step_of_script h]
  exact hostWrite_cmd exec v _

/-- A write to any other index is a write of data (20_memory R74). -/
theorem step_of_dataWrite (h : s.port.script = .write idx v :: rest) (hidx : idx ≠ Reg.cmd.index) :
    step s = .next ((s.withScript rest).writeData idx v) := by
  rw [step_of_script h]
  exact if_neg hidx

theorem step_of_regWrite {r : Reg} (h : s.port.script = .write r.index v :: rest)
    (hr : r.access ≠ .writeOnly) :
    step s = .next { s.withScript rest with inp := s.inp.writeReg r v } := by
  rw [step_of_dataWrite h (index_ne_cmd hr), writeData_index]
  rfl

theorem step_of_unmappedWrite (h : s.port.script = .write idx v :: rest)
    (hidx : ∀ r : Reg, idx ≠ r.index) : step s = .next (s.withScript rest) := by
  rw [step_of_dataWrite h (hidx .cmd), writeData_of_unmapped hidx]

theorem step_of_read (h : s.port.script = .read idx :: rest) :
    step s = .next ((s.withScript rest).takeRead (s.hostRead idx)) := by
  rw [step_of_script h]
  rfl

end

/-! ### The statements -/

/-- Settles O6: the step runs the word, and the word decodes to the command. -/
theorem stepRunsTheDecodedCommand : Obligations.StepRunsTheDecodedCommand := by
  intro s cw rest i hscript hdec _
  rw [step_of_cmdWrite hscript, runWord_of_decodes exec hdec]

/-- Settles O8: by the kind of register the index names. -/
theorem hostWriteEffect : Obligations.HostWriteEffect := by
  intro s idx v rest hscript
  refine ⟨?cmd, ?readWrite, ?readOnly, step_of_unmappedWrite hscript⟩
  case cmd =>
    rintro rfl
    rw [step_of_cmdWrite hscript]
    exact ⟨fun i hi => runWord_of_decodes exec hi _, fun e he => runWord_of_illegal exec he _⟩
  case readWrite =>
    rintro r hr rfl
    exact ⟨_, step_of_regWrite hscript (by simp [hr]), readReg_writeReg_same (s.withScript rest) hr v,
      fun r' hne => readReg_writeReg_ne (s.withScript rest) hr v hne, rfl, rfl, rfl, rfl⟩
  case readOnly =>
    rintro r hr rfl
    rw [step_of_regWrite hscript (by simp [hr]), writeReg_of_readOnly _ hr]
    rfl

/-- Settles O9: the value is the one found at the index, clause by clause of the index map. -/
theorem hostReadReturnsTheRegister : Obligations.HostReadReturnsTheRegister := by
  intro s idx rest hscript
  have hreg (r : Reg) (h : idx = r.index) : s.hostRead idx = s.readReg r := by
    rw [h, hostRead_index]
  exact ⟨s.hostRead idx, step_of_read hscript, hreg .cmd, hreg .status, hreg .fmto, hreg .pinleno,
    hreg .blkleno, hreg .fldleno, hreg .pinleni, hreg .panlen, hreg .noncelen, hreg .blkleni,
    fun k h => hreg (.pini k) (index_eq_ofNat h), fun k h => hreg (.pan k) (index_eq_ofNat h),
    fun k h => hreg (.nonce k) (index_eq_ofNat h), fun k h => hreg (.blki k) (index_eq_ofNat h),
    fun k h => hreg (.fldi k) (index_eq_ofNat h), fun k h => hreg (.pino k) (index_eq_ofNat h),
    fun k h => hreg (.blko k) (index_eq_ofNat h), fun k h => hreg (.fldo k) (index_eq_ofNat h),
    fun h => hostRead_of_unmapped h s⟩

/-- Settles O10: no register has the index exactly when the index map finds none there, and then a write
and a read find nothing to act on. -/
theorem unmappedIndicesAreInert : Obligations.UnmappedIndicesAreInert := by
  intro s idx v rest
  refine ⟨(regAt_eq_none_iff idx).symm.trans (regAt_eq_none_iff_ranges idx), fun h => ⟨?_, ?_⟩⟩
  · exact step_of_unmappedWrite (s := s.withScript (.write idx v :: rest)) rfl h
  · rw [step_of_read (s := s.withScript (.read idx :: rest)) rfl, hostRead_of_unmapped h]
    rfl

/-! ### Repeating a command -/

/-- Settles O27: by the frame, a command that drew nothing has changed results only, and it reads no
earlier result; `CLR` finds zero registers the second time. -/
theorem commandWithoutDrawsIsIdempotent : Obligations.CommandWithoutDrawsIsIdempotent := by
  intro i s t h hrng
  by_cases hnop : i = .nop
  · rw [hnop]
    rfl
  by_cases hclr : i = .clr
  · subst hclr
    cases h
    rfl
  obtain ⟨hport, hinp, _⟩ := commandFrame i s t h
  have ht : t = { s with out := t.out, scratch := t.scratch } := by
    rw [← hport, ← hinp hclr, ← hrng]
  calc exec i t = exec i { s with out := t.out, scratch := t.scratch } := congrArg (exec i) ht
    _ = exec i s := commandIgnoresEarlierResults i s t.out t.scratch hnop
    _ = .next t := h

end Sys2Proof.Machine
end

section
/-! SUPPORT. The encoding of command words (spec 30_encoding R100 to R106): a word decodes to a command
exactly when it is the command's word, exactly when a row of the opcode table selects it; and what a word
that no row selects does. -/

namespace Sys2Proof.Machine

/-! ### The fields of a word -/

section
variable (opc : Byte) (a b : Nibble)

@[simp] theorem opcField_commandWord : opcField (commandWord opc a b) = opc := by
  rw [opcField, commandWord, BitVec.extractLsb'_append_eq_of_le (by decide)]
  exact BitVec.extractLsb'_append_eq_left

@[simp] theorem aField_commandWord : aField (commandWord opc a b) = a := by
  rw [aField, commandWord, BitVec.extractLsb'_append_eq_of_le (by decide)]
  exact BitVec.extractLsb'_append_eq_right

@[simp] theorem bField_commandWord : bField (commandWord opc a b) = b :=
  BitVec.extractLsb'_append_eq_right

/-- The mask of format P keeps the opcode and drops the immediates (R102). -/
theorem commandWord_and_opcodeMask : commandWord opc a b &&& 0xFF00 = commandWord opc 0 0 := by
  calc commandWord opc a b &&& commandWord 0xFF 0 0
      = (opc &&& 0xFF) ++ (a &&& 0) ++ (b &&& 0) := by
        rw [commandWord, commandWord, BitVec.and_append, BitVec.and_append]
    _ = commandWord opc 0 0 := by
        rw [show opc &&& 0xFF = opc from BitVec.and_allOnes, show a &&& 0 = 0 from BitVec.and_zero,
          show b &&& 0 = 0 from BitVec.and_zero, commandWord]

end

/-- The low byte `CW[7:0]` is zero exactly when both immediates are (R100). -/
theorem lowByte_eq_zero_iff (cw : Word) :
    cw.extractLsb' 0 8 = (0 : Byte) ↔ aField cw = 0 ∧ bField cw = 0 := by
  have hbyte : cw.extractLsb' 0 8 = byteOf (aField cw) (bField cw) :=
    (BitVec.extractLsb'_append_extractLsb'_eq_extractLsb' (len₁ := 4) (len₂ := 4) rfl).symm
  rw [hbyte]
  constructor
  · intro hzero
    have ha := hiNib_byteOf (aField cw) (bField cw)
    have hb := loNib_byteOf (aField cw) (bField cw)
    rw [hzero] at ha hb
    exact ⟨ha.symm, hb.symm⟩
  · rintro ⟨ha, hb⟩
    rw [ha, hb]
    rfl

/-! ### The opcode -/

/-- An opcode of a format-Z command is the opcode of that command's word (R102, R104). -/
theorem encode_of_selectOpcode {opc : Byte} {i : Instr} (h : selectOpcode opc = some (.z i)) :
    encode i = commandWord opc 0 0 := by
  unfold selectOpcode at h
  split at h
  case h_15 | h_20 => cases h
  all_goals
    rename_i hopc
    cases h
    rw [index_eq_ofNat hopc]
    rfl

/-- `PACK` alone is of format P (R102). -/
theorem selectOpcode_eq_p_iff (opc : Byte) : selectOpcode opc = some .p ↔ opc = 0x40 := by
  refine ⟨fun h => ?_, fun h => h ▸ rfl⟩
  unfold selectOpcode at h
  split at h
  case h_15 hopc => exact index_eq_ofNat hopc
  all_goals cases h

/-- The opcodes that R104 does not list. -/
theorem selectOpcode_eq_none_iff (opc : Byte) :
    selectOpcode opc = none ↔
      (0x02 ≤ opc.toNat ∧ opc.toNat ≤ 0x0F) ∨ (0x15 ≤ opc.toNat ∧ opc.toNat ≤ 0x1F) ∨
      (0x25 ≤ opc.toNat ∧ opc.toNat ≤ 0x2F) ∨ (0x32 ≤ opc.toNat ∧ opc.toNat ≤ 0x3F) ∨
      0x45 ≤ opc.toNat := by
  unfold selectOpcode
  split
  case h_20 =>
    refine iff_of_true rfl ?_
    simp only [imp_false] at *
    omega
  all_goals
    refine iff_of_false nofun ?_
    omega

/-! ### Decoding and encoding -/

/-- Every command's word decodes to the command. -/
theorem decodeWord_encode (i : Instr) : decodeWord (encode i) = .ok i := by
  cases i with
  | pack a b =>
    rw [encode, decodeWord, opcField_commandWord, aField_commandWord, bField_commandWord]
    rfl
  | _ => rfl

/-- A word that decodes to a command is the command's word: the opcode is the command's own, and the
immediates are `PACK`'s or zero. -/
theorem encode_of_decodeWord {cw : Word} {i : Instr} (h : decodeWord cw = .ok i) : encode i = cw := by
  unfold decodeWord at h
  split at h
  · cases h
  · rename_i hsel
    cases h
    rw [encode, ← (selectOpcode_eq_p_iff _).mp hsel, commandWord_fields]
  · rename_i hsel
    split at h
    · rename_i hab
      cases h
      rw [encode_of_selectOpcode hsel]
      calc commandWord (opcField cw) 0 0
          = commandWord (opcField cw) (aField cw) (bField cw) := by rw [hab.1, hab.2]
        _ = cw := commandWord_fields cw
    · cases h

theorem decodeWord_eq_ok_iff {cw : Word} {i : Instr} : decodeWord cw = .ok i ↔ cw = encode i :=
  ⟨fun h => (encode_of_decodeWord h).symm, fun h => h ▸ decodeWord_encode i⟩

/-- The immediates are nibbles, so every command is well-formed (R109). -/
theorem wellFormed_all (i : Instr) : i.wellFormed = true := by
  cases i with
  | pack a b =>
    simp only [Instr.wellFormed, Bool.and_eq_true, decide_eq_true_eq]
    omega
  | _ => rfl

/-! ### The rows of the opcode table -/

/-- The row `i` of R104 selects the word: `CW & mask = match`. -/
def RowSelects (i : Instr) (cw : Word) : Prop := cw &&& (tableRow i).2 = (tableRow i).1

/-- A command's word is selected by the command's row. -/
theorem rowSelects_encode (i : Instr) : RowSelects i (encode i) := by
  cases i with
  | pack a b => exact Laws.EncodesRow.pack a b
  | _ => rfl

/-- A row whose mask is full selects one word, the command's. -/
theorem rowSelects_iff_of_fullMask {i : Instr} (hmask : (tableRow i).2 = 0xFFFF) (cw : Word) :
    RowSelects i cw ↔ decodeWord cw = .ok i := by
  have hall (w : Word) : w &&& (tableRow i).2 = w := by
    rw [hmask]
    exact BitVec.and_allOnes
  have hmatch : encode i = (tableRow i).1 := (hall _).symm.trans (rowSelects_encode i)
  rw [RowSelects, hall, decodeWord_eq_ok_iff, hmatch]

/-- The row of `PACK` selects the words with its opcode, whatever the immediates (R102). -/
theorem rowSelects_pack_iff (a b : Nibble) (cw : Word) :
    RowSelects (.pack a b) cw ↔ ∃ a' b', decodeWord cw = .ok (.pack a' b') := by
  constructor
  · intro h
    have hword : commandWord (opcField cw) 0 0 = commandWord 0x40 0 0 := by
      rw [← commandWord_and_opcodeMask _ (aField cw) (bField cw), commandWord_fields]
      exact h
    have hopc : opcField cw = 0x40 := by simpa using congrArg opcField hword
    refine ⟨aField cw, bField cw, decodeWord_eq_ok_iff.mpr ?_⟩
    rw [encode, ← hopc, commandWord_fields]
  · rintro ⟨a', b', h⟩
    rw [decodeWord_eq_ok_iff.mp h]
    exact rowSelects_encode (.pack a' b')

/-- Some row selects a word exactly when the word decodes to some command. -/
theorem exists_rowSelects_iff (cw : Word) :
    (∃ i, RowSelects i cw) ↔ ∃ i, decodeWord cw = .ok i := by
  constructor
  · rintro ⟨i, h⟩
    cases i with
    | pack a b =>
      obtain ⟨a', b', hdec⟩ := (rowSelects_pack_iff a b cw).mp h
      exact ⟨_, hdec⟩
    | _ => exact ⟨_, (rowSelects_iff_of_fullMask rfl cw).mp h⟩
  · rintro ⟨i, h⟩
    exact ⟨i, decodeWord_eq_ok_iff.mp h ▸ rowSelects_encode i⟩

/-! ### Illegal words -/

/-- A word decodes to no command when its opcode is unassigned, or is of format Z with a low byte that is
not zero (R101 step 3, R106). -/
theorem not_decodes_iff (cw : Word) :
    (¬ ∃ i, decodeWord cw = .ok i) ↔
      selectOpcode (opcField cw) = none ∨ (opcField cw ≠ 0x40 ∧ cw.extractLsb' 0 8 ≠ (0 : Byte)) := by
  rw [ne_eq, ← selectOpcode_eq_p_iff, ne_eq, lowByte_eq_zero_iff, decodeWord]
  cases selectOpcode (opcField cw) with
  | none => simp
  | some sel =>
    cases sel with
    | p => simp
    | z i =>
      split_ifs with hab
      · simp [hab]
      · simpa using hab

theorem noRowSelects_iff (cw : Word) :
    (∀ i, ¬ RowSelects i cw) ↔ ¬ ∃ i, decodeWord cw = .ok i := by
  rw [← not_exists, exists_rowSelects_iff]

theorem decodeWord_error_of_noRowSelects {cw : Word} (h : ∀ i, ¬ RowSelects i cw) :
    ∃ e, decodeWord cw = .error e := by
  cases hdec : decodeWord cw with
  | error e => exact ⟨e, rfl⟩
  | ok i => exact absurd ⟨i, hdec⟩ ((noRowSelects_iff cw).mp h)

/-! ### The statements -/

/-- Settles O1. -/
theorem encodedCommandDecodesBack : Obligations.EncodedCommandDecodesBack :=
  fun i _ => decodeWord_encode i

/-- Settles O2. -/
theorem decodedWordIsThatCommandsWord : Obligations.DecodedWordIsThatCommandsWord :=
  fun _ i h => ⟨encode_of_decodeWord h, wellFormed_all i⟩

/-- Settles O3: the mask of `PACK`'s row drops the immediates, every other mask is full. -/
theorem wordSelectsByMatchAndMask : Obligations.WordSelectsByMatchAndMask := by
  intro cw
  have hrow (i : Instr) (hmask : (tableRow i).2 = 0xFFFF) : decodeWord cw = .ok i ↔ RowSelects i cw :=
    (rowSelects_iff_of_fullMask hmask cw).symm
  exact ⟨hrow .nop rfl, hrow .clr rfl, hrow .enc0 rfl, hrow .enc1 rfl, hrow .enc2 rfl, hrow .enc3 rfl,
    hrow .enc4 rfl, hrow .dec0 rfl, hrow .dec1 rfl, hrow .dec2 rfl, hrow .dec3 rfl, hrow .dec4 rfl,
    hrow .getfmt rfl, hrow .decode rfl, (rowSelects_pack_iff 0 0 cw).symm, hrow .unpack rfl,
    hrow .drv64 rfl, hrow .drv128 rfl, hrow .xor rfl⟩

/-- Settles O4: each is the word of its command. -/
theorem writtenOutWordsDecode : Obligations.WrittenOutWordsDecode :=
  ⟨decodeWord_encode .nop, decodeWord_encode .enc1, decodeWord_encode .dec4, decodeWord_encode .decode,
    decodeWord_encode (.pack 2 15), decodeWord_encode .xor⟩

/-- Settles O5: such a word does not decode, and a word that does not decode fails with `ST_ILLCMD`. -/
theorem unselectedWordGivesIllcmd : Obligations.UnselectedWordGivesIllcmd := by
  intro cw
  constructor
  · refine (noRowSelects_iff cw).trans ?_
    rw [not_decodes_iff, selectOpcode_eq_none_iff, ne_eq (opcField cw), ← BitVec.toNat_inj]
    simp only [or_assoc]
    rfl
  · intro s rest hscript hnone
    obtain ⟨e, he⟩ := decodeWord_error_of_noRowSelects hnone
    rw [step_of_cmdWrite hscript, runWord_of_illegal exec he]

end Sys2Proof.Machine
end

section
/-! SUPPORT. Host scripts that read (spec 30_encoding R110): the moves of `MVBLK`, each a read of one
register and a write of the value read to another, and the comparison of `EXPECT`. -/

namespace Sys2Proof.Machine

/-! ### Moves -/

/-- What a read of the first register and a write of the value read to the second leave (20_memory R74,
R75). -/
def State.moveReg (s : State) (p : Reg × Reg) : State :=
  { s.takeRead (s.readReg p.1) with inp := s.inp.writeReg p.2 (s.readReg p.1) }

/-- The port operations of a sequence of moves (30_encoding R110). -/
def moveOps (ps : List (Reg × Reg)) : List PortOp :=
  ps.flatMap fun p => [.read p.1.index, .copy p.2.index]

theorem step_of_copy {s : State} {r : Reg} {rest : List PortOp}
    (h : s.port.script = .copy r.index :: rest) (hr : r.access ≠ .writeOnly) :
    step s = .next { s.withScript rest with inp := s.inp.writeReg r s.port.rdata } := by
  rw [step_of_script h]
  calc portOp exec (.copy r.index) (s.withScript rest)
      = .next ((s.withScript rest).writeData r.index s.port.rdata) := if_neg (index_ne_cmd hr)
    _ = .next { s.withScript rest with inp := s.inp.writeReg r s.port.rdata } := by
        rw [writeData_index]
        rfl

theorem runSteps_succ_of_step {s t : State} (h : step s = .next t) (n : Nat) :
    runSteps (n + 1) s = runSteps n t := by
  rw [runSteps, h]

theorem runSteps_move (s : State) (p : Reg × Reg) (hp : p.2.access ≠ .writeOnly)
    (rest : List PortOp) (n : Nat) :
    runSteps (n + 2) (s.withScript (.read p.1.index :: .copy p.2.index :: rest)) =
      runSteps n ((s.moveReg p).withScript rest) := by
  rw [runSteps_succ_of_step (step_of_read rfl), runSteps_succ_of_step (step_of_copy rfl hp),
    hostRead_index]
  rfl

/-- A sequence of moves into input registers, run to its end, makes them one after the other (20_memory
R81). -/
theorem runSteps_moveOps (ps : List (Reg × Reg)) (hps : ∀ p ∈ ps, p.2.access ≠ .writeOnly)
    (s : State) (rest : List PortOp) :
    runSteps (2 * ps.length) (s.withScript (moveOps ps ++ rest)) =
      .next ((ps.foldl State.moveReg s).withScript rest) := by
  induction ps generalizing s with
  | nil => rfl
  | cons p ps ih =>
    obtain ⟨hp, hps⟩ := List.forall_mem_cons.mp hps
    exact (runSteps_move s p hp _ _).trans (ih hps (s.moveReg p))

/-! ### Moving the block -/

theorem truncate_zext (b : Byte) : (b.setWidth 16).setWidth 8 = b := by
  rw [BitVec.setWidth_setWidth_of_le _ (by decide), BitVec.setWidth_eq]

theorem moveReg_block (s : State) (k : Fin 16) :
    s.moveReg (.blko k, .blki k) =
      { s.takeRead (s.out.blko[k].setWidth 16) with
        inp := { s.inp with blki := s.inp.blki.set k s.out.blko[k] } } := by
  simp only [State.moveReg, State.readReg, InputRegs.writeReg, truncate_zext]

theorem moveReg_blockLength (s : State) :
    s.moveReg (.blkleno, .blkleni) =
      { s.takeRead (s.out.blkleno.setWidth 16) with
        inp := { s.inp with blkleni := s.out.blkleno } } := by
  simp only [State.moveReg, State.readReg, InputRegs.writeReg, truncate_zext]

/-- The array `X` with the elements listed in `l` taken from `Y`. -/
def takeElements {α : Type} {n : Nat} (Y : Vector α n) (l : List (Fin n)) (X : Vector α n) :
    Vector α n :=
  l.foldl (fun X (k : Fin n) => X.set k Y[k]) X

theorem takeElements_cons {α : Type} {n : Nat} (Y : Vector α n) (k : Fin n) (l : List (Fin n))
    (X : Vector α n) : takeElements Y (k :: l) X = takeElements Y l (X.set k Y[k]) := rfl

theorem getElem_takeElements {α : Type} {n : Nat} (Y : Vector α n) (l : List (Fin n))
    (X : Vector α n) (j : Fin n) :
    (takeElements Y l X)[j] = if j ∈ l then Y[j] else X[j] := by
  induction l generalizing X with
  | nil => rfl
  | cons k l ih =>
    rw [takeElements_cons, ih]
    by_cases hl : j ∈ l
    · simp [hl]
    · by_cases hk : j = k
      · subst hk
        simp
      · have hval : k.val ≠ j.val := Fin.val_ne_of_ne (Ne.symm hk)
        simp [hl, hk, Vector.getElem_set_ne _ _ hval]

/-- All elements taken, nothing of `X` is left. -/
theorem takeElements_all {α : Type} {n : Nat} (X Y : Vector α n) :
    takeElements Y (List.finRange n) X = Y := by
  refine Vector.ext fun i hi => ?_
  simpa using getElem_takeElements Y (List.finRange n) X ⟨i, hi⟩

/-- The moves of `MVBLK`'s first 32 operations (30_encoding R110), for the elements listed. -/
def blockMoves (l : List (Fin 16)) : List (Reg × Reg) := l.map fun k => (.blko k, .blki k)

/-- They move the listed elements of the produced block to the block operand; what the host read last is
the value of some element. -/
theorem foldl_blockMoves (l : List (Fin 16)) (s : State) :
    ∃ w, (blockMoves l).foldl State.moveReg s =
      { s.takeRead w with inp := { s.inp with blki := takeElements s.out.blko l s.inp.blki } } := by
  induction l generalizing s with
  | nil => exact ⟨s.port.rdata, rfl⟩
  | cons k l ih =>
    obtain ⟨w, hw⟩ := ih (s.moveReg (.blko k, .blki k))
    refine ⟨w, hw.trans ?_⟩
    rw [takeElements_cons, moveReg_block]
    rfl

/-- All moves of `MVBLK`: the 16 elements, then the length. -/
def mvblkMoves : List (Reg × Reg) := blockMoves (List.finRange 16) ++ [(.blkleno, .blkleni)]

theorem mvblk_expand : Stmt.mvblk.expand = moveOps mvblkMoves := rfl

theorem foldl_mvblkMoves (s : State) :
    mvblkMoves.foldl State.moveReg s =
      { s.takeRead (s.out.blkleno.setWidth 16) with
        inp := { s.inp with blki := s.out.blko, blkleni := s.out.blkleno } } := by
  obtain ⟨w, hw⟩ := foldl_blockMoves (List.finRange 16) s
  rw [takeElements_all] at hw
  rw [mvblkMoves, List.foldl_append, hw]
  exact moveReg_blockLength _

/-! ### The statements -/

/-- Settles O11: the script is 17 moves, made one after the other. -/
theorem mvblkMovesTheBlock : Obligations.MvblkMovesTheBlock := by
  intro s rest hscript
  have hs : s = s.withScript (moveOps mvblkMoves ++ rest) := by
    rw [← mvblk_expand, ← hscript]
    rfl
  have hmem : ∀ p ∈ mvblkMoves, p.2.access ≠ .writeOnly := by decide
  calc runSteps 34 s = runSteps (2 * mvblkMoves.length) (s.withScript (moveOps mvblkMoves ++ rest)) :=
        congrArg (runSteps 34) hs
    _ = .next ((mvblkMoves.foldl State.moveReg s).withScript rest) := runSteps_moveOps _ hmem s rest
    _ = _ := by
        rw [foldl_mvblkMoves]
        rfl

/-- Settles O12: the value is the one found at the index, for `EXPECT` as for `RD`. -/
theorem expectComparesTheValueRead : Obligations.ExpectComparesTheValueRead := by
  intro s idx v rest hscript
  refine ⟨s.hostRead idx, step_of_read rfl, ?_⟩
  rw [step_of_script hscript, ← beq_eq_decide]
  rfl

end Sys2Proof.Machine
end

section
/-! SUPPORT. The packer (spec 40_packer R130 to R135): what `PACK` and `UNPACK` do, the nibbles of a packed
field, and that packing and unpacking invert each other. -/

namespace Sys2Proof.Machine

/-! ### The commands -/

/-- A command whose one check is the packer's: `ST_PINLEN` for a masked length above 12, else the outputs
(R134, R135). -/
theorem packChecked_outcome (s : State) (o : OutputRegs) :
    (Plan.checked (packError s.inp) 0 fun _ => o).outcome s =
      .next (if 12 < s.inp.pinleni.toNat % 16 then s.failedWith 0x02 else s.doneWith o) := by
  rw [packError_eq]
  split
  · rfl
  · rfl

theorem exec_pack (a b : Nibble) (s : State) :
    exec (.pack a b) s = .next (if 12 < s.inp.pinleni.toNat % 16 then s.failedWith 0x02
      else s.doneWith (.block8 (pack a s.inp.pini s.inp.pinleni b))) :=
  (exec_of_commandPlan rfl).trans (packChecked_outcome s _)

theorem exec_unpack (s : State) :
    exec .unpack s = .next (if 12 < s.inp.pinleni.toNat % 16 then s.failedWith 0x02
      else s.doneWith (.digits (unpack s.inp.blk8 s.inp.pinleni) (s.inp.pinleni &&& 0x0F) 0)) :=
  (exec_of_commandPlan rfl).trans (packChecked_outcome s _)

/-- The word of `PACK a, b` put together from its fields (30_encoding R100, R103). -/
theorem encode_pack (a b : Nibble) :
    encode (.pack a b) = 0x4000 ||| a.setWidth 16 <<< 4 ||| b.setWidth 16 := by
  revert a b; decide

/-! ### The masked length -/

theorem and_lowNibble_eq_ofNat (len : Byte) : len &&& 0x0F = BitVec.ofNat 8 (len.toNat % 16) := by
  rw [← maskLen_eq, maskLen, BitVec.ofNat_toNat, BitVec.setWidth_eq]

theorem toNat_mod_of_and_lowNibble_eq {len len' : Byte} (h : len &&& 0x0F = len' &&& 0x0F) :
    len.toNat % 16 = len'.toNat % 16 := by
  rw [← maskLen_eq, ← maskLen_eq, maskLen, maskLen, h]

/-- `pack` uses the masked length alone, for the length nibble and for the count of digits (R131). -/
theorem pack_congr_length {len len' : Byte} (h : len.toNat % 16 = len'.toNat % 16) (fmt fill : Nibble)
    (d : Vector Nibble 12) : pack fmt d len fill = pack fmt d len' fill := by
  refine vector_ext_nib fun k hk => ?_
  rw [nib_pack _ _ _ _ _ hk, nib_pack _ _ _ _ _ hk, h]

/-! ### The nibbles of a packed field -/

section
variable (fmt fill : Nibble) (d : Vector Nibble 12) (len : Byte)

theorem nib_pack_control : nib (pack fmt d len fill) 0 = fmt :=
  nib_pack fmt fill d len 0 (by decide)

theorem nib_pack_length : nib (pack fmt d len fill) 1 = BitVec.ofNat 4 (len.toNat % 16) :=
  nib_pack fmt fill d len 1 (by decide)

theorem nib_pack_digit {k : Nat} (hk : k < len.toNat % 16) (h14 : k < 14) :
    nib (pack fmt d len fill) (2 + k) = digitAt d k := by
  rw [nib_pack _ _ _ _ _ (by omega), fieldNibble, if_neg (by omega), if_neg (by omega),
    if_pos (by omega), Nat.add_sub_cancel_left]

theorem nib_pack_fill {k : Nat} (hk : 2 + len.toNat % 16 ≤ k) (h16 : k < 16) :
    nib (pack fmt d len fill) k = fill := by
  rw [nib_pack _ _ _ _ _ h16, fieldNibble, if_neg (by omega), if_neg (by omega), if_neg (by omega)]

/-- `unpack` gives back the digits that were packed (R133, first law). -/
theorem unpack_pack (hlen : len.toNat % 16 ≤ 12) :
    unpack (pack fmt d len fill) len = (List.range (len.toNat % 16)).map (digitAt d) := by
  rw [unpack, maskLen_eq]
  refine List.map_congr_left fun k hk => ?_
  have hk' := List.mem_range.mp hk
  exact nib_pack_digit fmt fill d len hk' (by omega)

end

/-! ### Packing what was unpacked -/

/-- The digits `unpack` reads, padded to the twelve that `pack` takes (R133, second law). -/
def unpackedDigits (X : Vector Byte 8) (len : Byte) : Vector Nibble 12 :=
  Vector.ofFn fun k : Fin 12 => (unpack X len).getD k.val 0

theorem digitAt_unpackedDigits (X : Vector Byte 8) {len : Byte} {k : Nat} (hk : k < len.toNat % 16)
    (h12 : k < 12) : digitAt (unpackedDigits X len) k = nib X (2 + k) := by
  rw [digitAt, unpackedDigits, Vector.getElem?_eq_getElem h12, Option.getD_some, Vector.getElem_ofFn,
    unpack_getD, maskLen_eq, if_pos hk]

theorem nib_pack_unpackedDigits (X : Vector Byte 8) {len : Byte} (fmt fill : Nibble)
    (hlen : len.toNat % 16 ≤ 12) {k : Nat} (h2 : 2 ≤ k) (hk : k < 2 + len.toNat % 16) :
    nib (pack fmt (unpackedDigits X len) len fill) k = nib X k := by
  obtain ⟨j, rfl⟩ := Nat.exists_eq_add_of_le h2
  rw [nib_pack_digit _ _ _ _ (by omega) (by omega), digitAt_unpackedDigits X (by omega) (by omega)]

/-! ### The statements -/

/-- Settles O30: the field is `pack`'s, whose nibble map is `nib_pack`. -/
theorem packResult : Obligations.PackResult := by
  intro a b s L
  refine ⟨encode_pack a b ▸ decodeWord_encode (.pack a b), ?_⟩
  split
  case isTrue hlen => rw [exec_pack, if_pos hlen]
  case isFalse hlen =>
    refine ⟨pack a s.inp.pini s.inp.pinleni b, nib_pack a b s.inp.pini s.inp.pinleni, ?_⟩
    rw [exec_pack, if_neg hlen, OutputRegs.block8]

/-- Settles O31: what `unpack` reads of `BLKI[0..7]` are the digits delivered, and the masked length goes
with them. -/
theorem unpackResult : Obligations.UnpackResult := by
  refine ⟨decodeWord_encode .unpack, fun s => ?_⟩
  intro L
  split
  case isTrue hlen => rw [exec_unpack, if_pos hlen]
  case isFalse hlen =>
    have hdigits : ∀ k, k < 12 → (unpack s.inp.blk8 s.inp.pinleni).getD k 0 =
        if k < L then nib s.inp.blki (2 + k) else 0 := by
      intro k hk
      rw [unpack_getD, maskLen_eq, InputRegs.blk8, nib_first8 _ _ (by omega)]
    rw [exec_unpack, if_neg hlen,
      digits_eq_deliveredPin (and_lowNibble_eq_ofNat s.inp.pinleni) hdigits]

/-- Settles O32: nibble by nibble, and from nibble `2 + Le` on the packed field is the fill. -/
theorem packAndUnpackInvert : Obligations.PackAndUnpackInvert := by
  intro fmt fill d X len Le Y hlen
  have hfill : ∀ k, 2 + Le ≤ k → k < 16 → nib Y k = fill := fun k => nib_pack_fill _ _ _ _
  refine ⟨unpack_pack fmt fill d len hlen, nib_pack_control _ _ _ _,
    fun k => nib_pack_unpackedDigits X _ fill hlen, fun hnib => ?_, ?_, ?_⟩
  · calc nib Y 1 = BitVec.ofNat 4 Le := nib_pack_length _ _ _ _
      _ = nib X 1 := by rw [← hnib, BitVec.ofNat_toNat, BitVec.setWidth_eq]
  · exact fun hagree k hk h16 => (hagree k hk h16).symm.trans (hfill k hk h16)
  · exact fun hX k hk h16 => (hfill k hk h16).trans (hX k hk h16).symm

/-- Settles O33: the check and `pack` both take the length modulo 16. -/
theorem packMasksTheLength : Obligations.PackMasksTheLength := by
  intro a b s t u len hmask ht hu
  have hlen := toNat_mod_of_and_lowNibble_eq hmask
  rw [exec_pack] at ht hu
  cases ht
  cases hu
  simp only [hlen, pack_congr_length hlen]
  split
  · rfl
  · rfl

end Sys2Proof.Machine
end

section
/-! SUPPORT. The PAN field deriver (spec 41_pan_field R155, R156): what `DRV64` and `DRV128` do, and the two
layouts of the 16-byte field. The nibble map of the 8-byte field is `nib_derive64`. -/

namespace Sys2Proof.Machine

/-! ### The commands -/

/-- The check of `DRV64` and `DRV128` (R155, R156). -/
theorem deriveError_eq (inp : InputRegs) :
    deriveError inp =
      if inp.panlen.toNat = 0 ∨ 10 < inp.panlen.toNat then some .arg else none := by
  simp only [deriveError, panArgBad_iff]

/-- A command whose one check is the deriver's: `ST_ARG` for a PAN length of 0 or above 10, else the outputs
(R155, R156). -/
theorem deriveChecked_outcome (s : State) (o : OutputRegs) :
    (Plan.checked (deriveError s.inp) 0 fun _ => o).outcome s =
      .next (if s.inp.panlen.toNat = 0 ∨ 10 < s.inp.panlen.toNat then s.failedWith 0x01
        else s.doneWith o) := by
  rw [deriveError_eq]
  split
  · rfl
  · rfl

theorem exec_drv64 (s : State) :
    exec .drv64 s = .next (if s.inp.panlen.toNat = 0 ∨ 10 < s.inp.panlen.toNat then s.failedWith 0x01
      else s.doneWith (.field8 s.inp.panField8)) :=
  (exec_of_commandPlan rfl).trans (deriveChecked_outcome s _)

theorem exec_drv128 (s : State) :
    exec .drv128 s = .next (if s.inp.panlen.toNat = 0 ∨ 10 < s.inp.panlen.toNat then s.failedWith 0x01
      else s.doneWith (.field16 s.inp.panField16)) :=
  (exec_of_commandPlan rfl).trans (deriveChecked_outcome s _)

/-! ### The two layouts of the 16-byte field -/

section
variable (P : Vector Byte 10) {n k : Nat}

/-- At most 12 digits stand right-justified in nibbles 1 to 12; the length indicator is zero (R153). -/
theorem nib_derive128_short (hcount : digitCount P (2 * n) ≤ 12) (hk : k < 32) :
    nib (derive128 P n) k =
      if 13 - digitCount P (2 * n) ≤ k ∧ k ≤ 12 then nib P (k - (13 - digitCount P (2 * n))) else 0 := by
  rw [nib_derive128 P n k hk, if_pos hcount]

/-- More than 12 digits stand left-justified from nibble 1, behind the length indicator (R153). -/
theorem nib_derive128_long (hcount : 12 < digitCount P (2 * n)) (hk : k < 32) :
    nib (derive128 P n) k =
      if k = 0 then BitVec.ofNat 4 (digitCount P (2 * n) - 12)
      else if k ≤ digitCount P (2 * n) then nib P (k - 1) else 0 := by
  rw [nib_derive128 P n k hk, if_neg (Nat.not_le.mpr hcount)]

end

/-! ### The statements -/

/-- Settles O34: the field is `derive64`'s, whose nibble map is `nib_derive64`. -/
theorem drvSixtyFourResult : Obligations.DrvSixtyFourResult := by
  refine ⟨decodeWord_encode .drv64, fun s => ?_⟩
  intro n
  split
  case isTrue hlen => rw [exec_drv64, if_pos hlen]
  case isFalse hlen =>
    refine ⟨s.inp.panField8, nib_derive64 s.inp.pan n, ?_⟩
    rw [exec_drv64, if_neg hlen, OutputRegs.field8]

/-- Settles O35: the field is `derive128`'s; `digitCount` is the count that the trailing pad run leaves, and
it selects the layout. -/
theorem drvOneTwentyEightResult : Obligations.DrvOneTwentyEightResult := by
  refine ⟨decodeWord_encode .drv128, fun s => ?_⟩
  intro n
  split
  case isTrue hlen => rw [exec_drv128, if_pos hlen]
  case isFalse hlen =>
    refine ⟨digitCount s.inp.pan (2 * n), s.inp.panField16, digitCount_le _ _,
      pad_of_digitCount_le _ _, digit_before_digitCount _ _,
      fun hshort _ => nib_derive128_short _ hshort, fun hlong _ => nib_derive128_long _ hlong, ?_⟩
    rw [exec_drv128, if_neg hlen, OutputRegs.field16]

end Sys2Proof.Machine
end

section
/-! SUPPORT. Padding (spec 42_padding R171, R173): how many random bytes a command has drawn when it
completes, and the padding digit made of a random byte. -/

namespace Sys2Proof.Machine

/-! ### Draws -/

/-- `ST_OK` is the only code whose value is 0x00 (60_exceptions R300). -/
theorem Code.toByte_eq_zero_iff (c : Code) : c.toByte = 0x00 ↔ c = .ok := by
  cases c <;> decide

/-- A plan that completes has drawn all its bytes when the status is `ST_OK`, and none otherwise, provided
its checks never answer `ST_OK`. -/
theorem drawn_of_checked_outcome {err : Option Code} {n : Nat} {out : List Byte → OutputRegs} {s t : State}
    (herr : err ≠ some .ok) (h : (Plan.checked err n out).outcome s = .next t) :
    t.rng.drawn = s.rng.drawn + (if t.out.status ≠ 0x00 then 0 else n) := by
  cases err with
  | some c =>
    have hstatus : (s.failedWith c.toByte).out.status ≠ 0x00 :=
      fun hz => herr (congrArg some (c.toByte_eq_zero_iff.mp hz))
    cases h
    rw [if_pos hstatus]
    rfl
  | none =>
    simp only [Plan.checked, Plan.outcome] at h
    split at h
    case h_1 => cases h
    case h_2 r g hdraws =>
      obtain ⟨_, hdrawn, _⟩ := drawBytes_some hdraws
      cases h
      exact hdrawn

/-- `ENC1` draws its padding bytes only when the host has given no nonce (R171, R174). -/
theorem drawn_of_enc1Plan_outcome {s t : State} (h : (enc1Plan s.inp).outcome s = .next t) :
    t.rng.drawn = s.rng.drawn + (if t.out.status ≠ 0x00 then 0
      else if s.inp.noncelen = 0 then padCapacity s.inp.pinleni.toNat else 0) := by
  have herr := encode1Error_ne_ok s.inp
  unfold enc1Plan at h
  split at h
  case isTrue hnone =>
    rw [if_pos hnone]
    exact drawn_of_checked_outcome herr h
  case isFalse hnonce =>
    rw [if_neg hnonce]
    exact drawn_of_checked_outcome herr h

/-- Settles O28: the commands that can draw carry out a checked plan; every other one leaves the source
alone, by the frame. -/
theorem drawCounts : Obligations.DrawCounts := by
  intro i s t h
  cases i with
  | enc1 =>
    rw [exec_of_commandPlan rfl] at h
    exact drawn_of_enc1Plan_outcome h
  | enc3 =>
    rw [exec_of_commandPlan rfl] at h
    exact drawn_of_checked_outcome (encodeError_ne_ok _ _) h
  | enc4 =>
    rw [exec_of_commandPlan rfl] at h
    exact drawn_of_checked_outcome (encodeError_ne_ok _ _) h
  | _ =>
    obtain ⟨_, _, hrng, _⟩ := commandFrame _ s t h
    simp [hrng rfl]

/-! ### The padding digit -/

/-- The sum stays below 16, so the digit is the formula's number (R173, "without overflow"). -/
theorem toNat_padnib (b : Byte) : (padnib b).toNat = (b.toNat * 6) / 256 + 10 := by
  have hb : b.toNat < 256 := b.isLt
  rw [padnib, BitVec.toNat_ofNat, Nat.shiftRight_eq_div_pow]
  omega

theorem padnib_eq_iff (b : Byte) (d : Nibble) : padnib b = d ↔ b.toNat * 6 / 256 + 10 = d.toNat := by
  rw [← toNat_padnib, BitVec.toNat_inj]

/-- Settles O38: in each range of the table the quotient is constant. -/
theorem padnibMap : Obligations.PadnibMap := by
  intro b
  refine ⟨?_, ?_⟩
  · rw [padnib_eq_iff]
    split_ifs <;> bv_omega
  · rw [toNat_padnib, Nat.shiftRight_eq_div_pow]

end Sys2Proof.Machine
end

section
/-! SUPPORT. The combiner (spec 43_combiner R190 to R193): the laws of `combine`, what `XOR` does, and the two
scripts that chain the primitive commands to what `ENC0`, `DEC0` and `DEC3` do. -/

namespace Sys2Proof.Machine

/-! ### The laws of `combine` -/

section
variable {n : Nat} (a b c : Vector Byte n)

theorem combine_comm : combine a b = combine b a :=
  vector_ext_byteAt fun i _ => by rw [byteAt_combine, byteAt_combine, BitVec.xor_comm]

theorem combine_assoc : combine (combine a b) c = combine a (combine b c) :=
  vector_ext_byteAt fun i _ => by simp only [byteAt_combine, BitVec.xor_assoc]

theorem byteAt_replicate_zero (i : Nat) : byteAt (Vector.replicate n 0) i = 0 := by
  by_cases h : i < n
  · rw [byteAt_eq_getElem _ i h, Vector.getElem_replicate]
  · exact byteAt_eq_zero _ i (Nat.not_lt.mp h)

theorem combine_zero : combine a (Vector.replicate n 0) = a :=
  vector_ext_byteAt fun i _ => by rw [byteAt_combine, byteAt_replicate_zero]; exact BitVec.xor_zero

theorem combine_self : combine a a = Vector.replicate n 0 :=
  vector_ext_byteAt fun i _ => by rw [byteAt_combine, byteAt_replicate_zero]; exact BitVec.xor_self

theorem combine_combine_cancel : combine (combine a b) b = a := by
  rw [combine_assoc, combine_self, combine_zero]

end

/-! ### The command `XOR` -/

/-- The checks of `XOR` on the number in `BLKLENI` (R192). -/
theorem xorError_eq (inp : InputRegs) :
    xorError inp =
      if inp.blkleni.toNat = 0 then some .arg
      else if inp.blkleni.toNat ≠ 8 ∧ inp.blkleni.toNat ≠ 16 then some .size
      else none := by
  have e8 : inp.blkleni = 8 ↔ inp.blkleni.toNat = 8 := BitVec.toNat_inj.symm
  have e16 : inp.blkleni = 16 ↔ inp.blkleni.toNat = 16 := BitVec.toNat_inj.symm
  simp only [xorError, beq_iff_eq, Bool.and_eq_true, bne_iff_ne, ne_eq, eq_zero_iff_toNat, e8, e16]

theorem exec_xor (s : State) :
    exec .xor s = .next (
      if s.inp.blkleni.toNat = 0 then s.failedWith 0x01
      else if s.inp.blkleni.toNat ≠ 8 ∧ s.inp.blkleni.toNat ≠ 16 then s.failedWith 0x03
      else s.doneWith (xorBlock s.inp)) := by
  rw [exec_of_commandPlan rfl, xorError_eq]
  split
  · rfl
  · split
    · rfl
    · rfl

/-- With `BLKLENI` = 8 `XOR` combines the first 8 bytes of its operands (R192). -/
theorem exec_xor_of_eight {s : State} (hlen : s.inp.blkleni = 8) :
    exec .xor s = .next (s.doneWith (.block8 (combine s.inp.blk8 (first8 s.inp.fldi)))) := by
  have hsize : s.inp.blkleni.toNat = 8 := by rw [hlen]; rfl
  rw [exec_xor, if_neg (by omega), if_neg (by omega), xorBlock, if_pos hlen]

/-- Both lengths at once: the bytes below the length combined, zero from there on (R192). -/
theorem blko_xorBlock {inp : InputRegs} (hlen : inp.blkleni = 8 ∨ inp.blkleni = 16) :
    (xorBlock inp).blko = Vector.ofFn fun k : Fin 16 =>
      if k.val < inp.blkleni.toNat then inp.blki[k] ^^^ inp.fldi[k] else 0 := by
  refine vector_ext_byteAt fun i hi => ?_
  have hbytes : inp.blki[i] ^^^ inp.fldi[i] = byteAt inp.blki i ^^^ byteAt inp.fldi i := by
    rw [byteAt_eq_getElem _ i hi, byteAt_eq_getElem _ i hi]
  simp only [byteAt_ofFn _ i hi, Fin.getElem_fin, hbytes]
  rcases hlen with h8 | h16
  · have hsize : inp.blkleni.toNat = 8 := by rw [h8]; rfl
    rw [xorBlock, if_pos h8, hsize, OutputRegs.block8_blko]
    split
    case isTrue hlow =>
      rw [byteAt_widen8, byteAt_combine, InputRegs.blk8, byteAt_first8 _ i hlow, byteAt_first8 _ i hlow]
    case isFalse hhigh => exact widen8_beyond _ i (Nat.not_lt.mp hhigh)
  · have hsize : inp.blkleni.toNat = 16 := by rw [h16]; rfl
    rw [xorBlock, if_neg (by rw [h16]; decide), hsize, OutputRegs.block16_blko, if_pos hi, byteAt_combine]

theorem xorBlock_eq {inp : InputRegs} (hlen : inp.blkleni = 8 ∨ inp.blkleni = 16) :
    xorBlock inp = { OutputRegs.zero with blko := (xorBlock inp).blko, blkleno := inp.blkleni } := by
  rcases hlen with h8 | h16
  · rw [xorBlock, if_pos h8, h8]; rfl
  · rw [xorBlock, if_neg (by rw [h16]; decide), h16]; rfl

/-! ### The commands the scripts are compared with -/

/-- What `ENC0` does: its checks, then the block of its two fields (44_encode R203). -/
theorem exec_enc0 (s : State) :
    exec .enc0 s = .next (
      if s.inp.pinleni.toNat = 0 ∨ s.inp.panlen.toNat = 0 ∨ 10 < s.inp.panlen.toNat then
        s.failedWith 0x01
      else if s.inp.pinleni.toNat < 4 ∨ 12 < s.inp.pinleni.toNat then s.failedWith 0x02
      else s.doneWith (encodedBlock s.inp .f0 [])) := by
  rw [exec_of_commandPlan rfl, encodeError_eq _ _ _ (panArgBad_iff s.inp)]
  split
  · rfl
  · split
    · rfl
    · rfl

/-- What the checks of a decoder have established when they pass (45_decode R230). -/
theorem operands_of_decodeError_none {inp : InputRegs} {fmt : Format} (h : decodeError inp fmt = none) :
    (fmt.usesPan = true → ¬ (inp.panlen.toNat = 0 ∨ 10 < inp.panlen.toNat)) ∧
    inp.blkleni = fmt.size ∧ nib inp.blki 0 = fmt.tag ∧
    4 ≤ (nib inp.blki 1).toNat ∧ (nib inp.blki 1).toNat ≤ 12 := by
  rw [decodeError_eq inp fmt _ Iff.rfl] at h
  split_ifs at h with harg hsize htag hlen
  refine ⟨fun hpan hbad => harg (.inr ?_), not_not.mp hsize, not_not.mp htag, by omega, by omega⟩
  rw [hpan, Bool.true_and]
  exact (panArgBad_iff inp).mpr hbad

theorem decodeError_ne_ok (inp : InputRegs) (fmt : Format) : decodeError inp fmt ≠ some .ok := by
  rw [decodeError_eq inp fmt _ Iff.rfl]
  split_ifs <;> simp

/-- A decoder that ends with `ST_OK` has passed its checks and delivers the digits of its field (45_decode
R234). -/
theorem decodeBlock_of_status_ok {s : State} {fmt : Format} (h : (s.decodeBlock fmt).out.status = 0x00) :
    decodeError s.inp fmt = none ∧
    s.decodeBlock fmt = s.doneWith
      (.digits (unpack (decodedField s.inp fmt) s.inp.blockPinLen) s.inp.blockPinLen fmt.tag) := by
  rw [decodeBlock_eq] at h ⊢
  cases herr : decodeError s.inp fmt with
  | some c =>
    rw [herr] at h
    exact absurd (herr.trans (congrArg some (c.toByte_eq_zero_iff.mp h))) (decodeError_ne_ok s.inp fmt)
  | none =>
    rw [herr] at h
    cases hgood : integrityOk s.inp fmt with
    | true => exact ⟨rfl, rfl⟩
    | false => rw [hgood] at h; cases h

theorem size_of_usesPan {fmt : Format} (h : fmt.usesPan = true) : fmt.size = 8 := by
  cases fmt with
  | f0 => rfl
  | f1 => rfl
  | f2 => rfl
  | f3 => rfl
  | f4 => cases h

/-- `DEC0` and `DEC3` are the decoders of the masked formats (45_decode R235, R238). -/
theorem exec_maskedDecoder {i : Instr} (hi : i = .dec0 ∨ i = .dec3) (s : State) :
    ∃ fmt : Format, fmt.usesPan = true ∧ exec i s = .next (s.decodeBlock fmt) := by
  rcases hi with rfl | rfl
  · exact ⟨.f0, rfl, rfl⟩
  · exact ⟨.f3, rfl, rfl⟩

/-- The decoded length is a nibble, so masking it changes nothing (40_packer R131). -/
theorem blockPinLen_and_lowNibble (inp : InputRegs) : inp.blockPinLen &&& 0x0F = inp.blockPinLen := by
  rw [InputRegs.blockPinLen]
  generalize inp.lengthNibble = v
  revert v
  decide

theorem toNat_blockPinLen (inp : InputRegs) : inp.blockPinLen.toNat = (nib inp.blki 1).toNat := by
  rw [InputRegs.blockPinLen, lengthNibble_eq, BitVec.toNat_setWidth_of_le (by decide)]

/-! ### The statements -/

/-- Settles O37: each law holds byte by byte, and self-inverse follows from the others. -/
theorem combineLaws : Obligations.CombineLaws := fun _ a b c =>
  ⟨combine_comm a b, combine_assoc a b c, combine_zero a, combine_combine_cancel a b, combine_self a⟩

/-- Settles O36: past its checks `XOR` delivers `xorBlock`, whose bytes are those of `blko_xorBlock`. -/
theorem xorResult : Obligations.XorResult := by
  refine ⟨decodeWord_encode .xor, fun s => ?_⟩
  intro n
  rw [exec_xor]
  split
  · rfl
  · split
    · rfl
    case isFalse _ hsize =>
      have hlen : s.inp.blkleni = 8 ∨ s.inp.blkleni = 16 := by
        rw [← BitVec.toNat_inj, ← BitVec.toNat_inj]
        exact (not_and_or.mp hsize).imp not_not.mp not_not.mp
      rw [xorBlock_eq hlen, blko_xorBlock hlen]

/-- Settles O55: `PACK 0, 15` leaves the PIN field and `DRV64` the PAN field that `ENC0` combines. -/
theorem primitivesChainToEncodeZero : Obligations.PrimitivesChainToEncodeZero := by
  intro s p d x e h4 h12 h1 h10 hp hd hblk hlen hfld he
  rw [exec_pack, if_neg (by omega)] at hp
  rw [exec_drv64, if_neg (by omega)] at hd
  rw [exec_enc0, if_neg (by omega), if_neg (by omega)] at he
  cases hp
  cases hd
  cases he
  have hpinField : x.inp.blk8 = pack 0x0 s.inp.pini s.inp.pinleni 0xF := by
    rw [InputRegs.blk8, hblk]; exact first8_widen8 _
  have hpanField : first8 x.inp.fldi = s.inp.panField8 := by
    rw [hfld]; exact first8_widen8 _
  refine ⟨_, exec_xor_of_eight hlen, ?_⟩
  rw [hpinField, hpanField]
  rfl

/-- Settles O56: `XOR` leaves the field that the decoder has unmasked, and `UNPACK` reads the same digits of
it, since the length nibble is its own masked length. -/
theorem primitivesChainToDecode : Obligations.PrimitivesChainToDecode := by
  intro s d x y z u i hi hu hok hd hblk hlen hfld hy hzblk hzlen
  obtain ⟨fmt, hpan, hdecoder⟩ := exec_maskedDecoder hi s
  obtain rfl : s.decodeBlock fmt = u := Host.Outcome.next.inj (hdecoder.symm.trans hu)
  obtain ⟨herr, hdone⟩ := decodeBlock_of_status_ok hok
  obtain ⟨hpanlen, hsize, -, -, h12⟩ := operands_of_decodeError_none herr
  rw [exec_drv64, if_neg (hpanlen hpan)] at hd
  rw [exec_xor_of_eight (by rw [hlen, hsize, size_of_usesPan hpan])] at hy
  cases hd
  cases hy
  have hpanField : first8 x.inp.fldi = s.inp.panField8 := by
    rw [hfld]; exact first8_widen8 _
  have hfield : z.inp.blk8 = decodedField s.inp fmt := by
    calc z.inp.blk8 = combine x.inp.blk8 (first8 x.inp.fldi) := by
          rw [InputRegs.blk8, hzblk]; exact first8_widen8 _
      _ = combine s.inp.blk8 s.inp.panField8 := by
          rw [hpanField, InputRegs.blk8, hblk, InputRegs.blk8]
      _ = decodedField s.inp fmt := by rw [decodedField, if_pos hpan]
  have hpinlen : z.inp.pinleni = s.inp.blockPinLen := by
    rw [hzlen, InputRegs.blockPinLen, lengthNibble_eq]
  have hshort : ¬ 12 < z.inp.pinleni.toNat % 16 := by
    rw [hpinlen, toNat_blockPinLen]; omega
  refine ⟨_, (exec_unpack z).trans (by rw [if_neg hshort]), ?_⟩
  rw [hdone, hfield, hpinlen, blockPinLen_and_lowNibble]
  exact ⟨rfl, rfl, rfl⟩

end Sys2Proof.Machine
end

section
/-! SUPPORT. The encoders (spec 44_encode R200 to R209): what each `ENC` does once its checks have passed, and
the nibbles of the field it makes. -/

namespace Sys2Proof.Machine

/-! ### The field before masking -/

/-- The nibble of a format's padding at nibble `k` of the field, with the padding bytes `S` (R203 to
R207). -/
def paddingDigit (fmt : Format) (L : Nat) (S : List Byte) (k : Nat) : Nibble :=
  match fmt with
  | .f0 => 0xF
  | .f1 => paddingNibble (fun j => S.getD j 0) L k
  | .f2 => 0xF
  | .f3 => padnib (S.getD (k - (2 + L)) 0)
  | .f4 => 0xA

/-- The padded PIN field of a format, before the PAN field masks it (R208). -/
def plainField (inp : InputRegs) (fmt : Format) (S : List Byte) : Vector Byte 8 :=
  match fmt with
  | .f0 => pack 0x0 inp.pini inp.pinleni 0xF
  | .f1 => pad1 (pack 0x1 inp.pini inp.pinleni 0x0) inp.pinleni.toNat S
  | .f2 => pack 0x2 inp.pini inp.pinleni 0xF
  | .f3 => pad3 (pack 0x3 inp.pini inp.pinleni 0x0) inp.pinleni.toNat S
  | .f4 => pack 0x4 inp.pini inp.pinleni 0xA

section
variable (fmt : Nibble) (d : Vector Nibble 12) (L : Nat) {p q : Nat → Nibble} {k : Nat}

/-- The nibble map reads its padding at nibbles from `2 + L` on only. -/
theorem fieldNibble_congr_padding (h : 2 + L ≤ k → p k = q k) :
    fieldNibble fmt d L p k = fieldNibble fmt d L q k := by
  unfold fieldNibble
  split_ifs with _ _ hdigit
  · rfl
  · rfl
  · rfl
  · exact h (Nat.not_lt.mp hdigit)

/-- A field whose nibbles from `2 + L` on are replaced has the nibble map with the new padding. -/
theorem fieldNibble_replace_padding :
    (if k < 2 + L then fieldNibble fmt d L p k else q k) = fieldNibble fmt d L q k := by
  split
  case isTrue hlow => exact fieldNibble_congr_padding fmt d L fun h => absurd hlow (Nat.not_lt.mpr h)
  case isFalse hhigh => rw [fieldNibble, if_neg (by omega), if_neg (by omega), if_neg hhigh]

end

/-- The nibble map of every format's PIN field, for a length that fits its nibble (R209). -/
theorem nib_plainField {inp : InputRegs} (hL : inp.pinleni.toNat < 16) (fmt : Format) (S : List Byte)
    {k : Nat} (hk : k < 16) :
    nib (plainField inp fmt S) k =
      fieldNibble fmt.tag inp.pini inp.pinleni.toNat (paddingDigit fmt inp.pinleni.toNat S) k := by
  have hpack (tag fill : Nibble) : nib (pack tag inp.pini inp.pinleni fill) k =
      fieldNibble tag inp.pini inp.pinleni.toNat (fun _ => fill) k := by
    rw [nib_pack _ _ _ _ _ hk, Nat.mod_eq_of_lt hL]
  cases fmt with
  | f0 => exact hpack 0x0 0xF
  | f1 =>
    rw [plainField, nib_pad1 _ _ _ _ hk, hpack]
    exact fieldNibble_replace_padding _ _ _
  | f2 => exact hpack 0x2 0xF
  | f3 =>
    rw [plainField, nib_pad3 _ _ _ _ hk, hpack]
    exact fieldNibble_replace_padding (q := paddingDigit .f3 inp.pinleni.toNat S) _ _ _
  | f4 => exact hpack 0x4 0xA

/-- The nibbles of a masked field: the PIN field's XOR the PAN field's (R203, R206). -/
theorem nib_masked_plainField {inp : InputRegs} (hL : inp.pinleni.toNat < 16) (fmt : Format) (S : List Byte)
    {k : Nat} (hk : k < 16) :
    nib (combine (plainField inp fmt S) inp.panField8) k =
      fieldNibble fmt.tag inp.pini inp.pinleni.toNat (paddingDigit fmt inp.pinleni.toNat S) k ^^^
        panNibble inp.pan inp.panlen.toNat k := by
  rw [nib_combine, nib_plainField hL fmt S hk, InputRegs.panField8, nib_derive64 _ _ _ hk]

theorem padnib_eq_ofNat (b : Byte) : padnib b = BitVec.ofNat 4 (b.toNat * 6 / 256 + 0xA) := by
  rw [padnib, Nat.shiftRight_eq_div_pow]

/-- Padding byte `j` of the host's nonce, from its end (42_padding R174). -/
theorem nonceSource_getD (inp : InputRegs) {cap j : Nat} (hj : j < cap) :
    (nonceSource inp cap).getD j 0 = byteAt inp.nonce (inp.noncelen.toNat - 1 - j) := by
  simp [nonceSource, List.getD, hj]

/-- The padding of format 1 stays within its capacity, so all of it comes from the nonce (42_padding R172,
R174). -/
theorem paddingDigit_nonceSource (inp : InputRegs) {L k : Nat} (hlow : 2 + L ≤ k) (hk : k < 16) :
    paddingDigit .f1 L (nonceSource inp (padCapacity L)) k =
      paddingNibble (fun j => byteAt inp.nonce (inp.noncelen.toNat - 1 - j)) L k := by
  have hcap : k / 2 - (1 + L / 2) < padCapacity L := by
    rw [padCapacity, Nat.shiftRight_eq_div_pow]; omega
  simp only [paddingDigit, paddingNibble, nonceSource_getD inp hcap]

/-- The first half of a format-4 field is the PIN field (42_padding R176). -/
theorem first8_joinHalves (F : Vector Byte 8) (r : List Byte) : first8 (joinHalves F r) = F :=
  vector_ext_byteAt fun i hi => by
    rw [byteAt_first8 _ _ hi, byteAt_joinHalves _ _ _ (by omega), if_pos hi]

/-! ### The commands -/

/-- A plan that draws completes with as many bytes as it asked for, when the source answers. -/
theorem deliver_outcome_of_responsive {s : State} (hs : s.rng.responsive = true) (n : Nat)
    (out : List Byte → OutputRegs) :
    ∃ r g, drawBytes n s.rng = some (r, g) ∧ r.length = n ∧
      (Plan.deliver n out).outcome s = .next ((s.doneWith (out r)).withRng g) := by
  obtain ⟨r, g, hdraws⟩ := drawBytes_of_responsive n hs
  refine ⟨r, g, hdraws, (drawBytes_some hdraws).1, ?_⟩
  simp only [Plan.outcome, hdraws]

/-- The first check of a plan, carried out: its failure, or the plan without it (60_exceptions R303). -/
theorem checked_ite_outcome (s : State) (P : Prop) [Decidable P] (c : Code) (err : Option Code) (n : Nat)
    (out : List Byte → OutputRegs) :
    (Plan.checked (if P then some c else err) n out).outcome s =
      if P then .next (s.failedWith c.toByte) else (Plan.checked err n out).outcome s := by
  split
  · rfl
  · rfl

/-- A command whose checks are those of R200, in their order. -/
theorem encodeChecked_outcome (s : State) {argBad : Bool} {P : Prop} [Decidable P] (hP : argBad = true ↔ P)
    (n : Nat) (out : List Byte → OutputRegs) :
    (Plan.checked (encodeError s.inp argBad) n out).outcome s =
      if s.inp.pinleni.toNat = 0 ∨ P then .next (s.failedWith 0x01)
      else if s.inp.pinleni.toNat < 4 ∨ 12 < s.inp.pinleni.toNat then .next (s.failedWith 0x02)
      else (Plan.deliver n out).outcome s := by
  rw [encodeError_eq _ _ P hP, checked_ite_outcome, checked_ite_outcome]
  rfl

/-- `ENC2` and `ENC4` have no argument but the PIN (R205, R207). -/
theorem encodeChecked_outcome_of_pinOnly (s : State) (n : Nat) (out : List Byte → OutputRegs) :
    (Plan.checked (encodeError s.inp false) n out).outcome s =
      if s.inp.pinleni.toNat = 0 then .next (s.failedWith 0x01)
      else if s.inp.pinleni.toNat < 4 ∨ 12 < s.inp.pinleni.toNat then .next (s.failedWith 0x02)
      else (Plan.deliver n out).outcome s := by
  rw [encodeChecked_outcome s (P := False) (by simp)]
  simp only [or_false]

/-- The checks of `ENC1`, in their order (R204): those of R200 with the nonce length as the argument, then
the nonce length against the capacity. -/
theorem encode1Error_eq (inp : InputRegs) :
    encode1Error inp =
      if inp.pinleni.toNat = 0 ∨ 8 < inp.noncelen.toNat then some .arg
      else if inp.pinleni.toNat < 4 ∨ 12 < inp.pinleni.toNat then some .pinlen
      else if inp.noncelen.toNat ≠ 0 ∧ inp.noncelen.toNat < padCapacity inp.pinleni.toNat then some .nonce
      else none := by
  rw [encode1Error, encodeError_eq _ _ (8 < inp.noncelen.toNat) decide_eq_true_iff]
  by_cases harg : inp.pinleni.toNat = 0 ∨ 8 < inp.noncelen.toNat
  · rw [if_pos harg, if_pos harg]
  by_cases hlen : inp.pinleni.toNat < 4 ∨ 12 < inp.pinleni.toNat
  · rw [if_neg harg, if_neg harg, if_pos hlen, if_pos hlen]
  · rw [if_neg harg, if_neg harg, if_neg hlen, if_neg hlen]
    simp only [Bool.and_eq_true, bne_iff_ne, decide_eq_true_eq, ne_eq, eq_zero_iff_toNat]

theorem encode1Checked_outcome (s : State) (n : Nat) (out : List Byte → OutputRegs) :
    (Plan.checked (encode1Error s.inp) n out).outcome s =
      if s.inp.pinleni.toNat = 0 ∨ 8 < s.inp.noncelen.toNat then .next (s.failedWith 0x01)
      else if s.inp.pinleni.toNat < 4 ∨ 12 < s.inp.pinleni.toNat then .next (s.failedWith 0x02)
      else if s.inp.noncelen.toNat ≠ 0 ∧ s.inp.noncelen.toNat < padCapacity s.inp.pinleni.toNat then
        .next (s.failedWith 0x06)
      else (Plan.deliver n out).outcome s := by
  rw [encode1Error_eq, checked_ite_outcome, checked_ite_outcome, checked_ite_outcome]
  rfl

/-- What `ENC1` does with a nonce, and without one (R204). -/
theorem exec_enc1 (s : State) :
    exec .enc1 s =
      if s.inp.pinleni.toNat = 0 ∨ 8 < s.inp.noncelen.toNat then .next (s.failedWith 0x01)
      else if s.inp.pinleni.toNat < 4 ∨ 12 < s.inp.pinleni.toNat then .next (s.failedWith 0x02)
      else if s.inp.noncelen.toNat ≠ 0 ∧ s.inp.noncelen.toNat < padCapacity s.inp.pinleni.toNat then
        .next (s.failedWith 0x06)
      else if s.inp.noncelen.toNat ≠ 0 then
        .next (s.doneWith (encodedBlock s.inp .f1 (nonceSource s.inp (padCapacity s.inp.pinleni.toNat))))
      else (Plan.deliver (padCapacity s.inp.pinleni.toNat) (encodedBlock s.inp .f1)).outcome s := by
  rw [exec_of_commandPlan rfl, enc1Plan]
  by_cases hnone : s.inp.noncelen.toNat = 0
  · rw [if_pos ((eq_zero_iff_toNat _).mpr hnone), encode1Checked_outcome,
      if_neg (c := s.inp.noncelen.toNat ≠ 0) (not_not.mpr hnone)]
  · rw [if_neg (hnone ∘ (eq_zero_iff_toNat _).mp), encode1Checked_outcome,
      if_pos (c := s.inp.noncelen.toNat ≠ 0) hnone]
    rfl

theorem exec_enc2 (s : State) :
    exec .enc2 s =
      if s.inp.pinleni.toNat = 0 then .next (s.failedWith 0x01)
      else if s.inp.pinleni.toNat < 4 ∨ 12 < s.inp.pinleni.toNat then .next (s.failedWith 0x02)
      else .next (s.doneWith (encodedBlock s.inp .f2 [])) :=
  (exec_of_commandPlan rfl).trans (encodeChecked_outcome_of_pinOnly s 0 _)

theorem exec_enc3 (s : State) :
    exec .enc3 s =
      if s.inp.pinleni.toNat = 0 ∨ s.inp.panlen.toNat = 0 ∨ 10 < s.inp.panlen.toNat then
        .next (s.failedWith 0x01)
      else if s.inp.pinleni.toNat < 4 ∨ 12 < s.inp.pinleni.toNat then .next (s.failedWith 0x02)
      else (Plan.deliver (14 - s.inp.pinleni.toNat) (encodedBlock s.inp .f3)).outcome s :=
  (exec_of_commandPlan rfl).trans (encodeChecked_outcome s (panArgBad_iff s.inp) _ _)

theorem exec_enc4 (s : State) :
    exec .enc4 s =
      if s.inp.pinleni.toNat = 0 then .next (s.failedWith 0x01)
      else if s.inp.pinleni.toNat < 4 ∨ 12 < s.inp.pinleni.toNat then .next (s.failedWith 0x02)
      else (Plan.deliver 8 (encodedBlock s.inp .f4)).outcome s :=
  (exec_of_commandPlan rfl).trans (encodeChecked_outcome_of_pinOnly s 8 _)

/-! ### The statements -/

/-- Settles O39: past its checks `ENC0` delivers the masked field, whose nibble map is
`nib_masked_plainField`. -/
theorem encodeFormatZeroResult : Obligations.EncodeFormatZeroResult := by
  refine ⟨decodeWord_encode .enc0, fun s => ?_⟩
  intro L n
  rw [exec_enc0]
  split
  · rfl
  · split
    · rfl
    case isFalse _ hlen =>
      exact ⟨combine (plainField s.inp .f0 []) s.inp.panField8,
        fun k hk => nib_masked_plainField (by omega) .f0 [] hk, rfl⟩

/-- Settles O40: by the checks in their order, then by where the padding bytes come from. -/
theorem encodeFormatOneResult : Obligations.EncodeFormatOneResult := by
  refine ⟨decodeWord_encode .enc1, fun s => ?_⟩
  intro L n cap
  rw [exec_enc1, padCapacity]
  split
  · rfl
  · split
    · rfl
    case isFalse _ hlen =>
      split
      · rfl
      · split
        case isTrue =>
          refine ⟨plainField s.inp .f1 (nonceSource s.inp cap), fun k hk => ?_, rfl⟩
          rw [nib_plainField (by omega) .f1 _ hk]
          exact fieldNibble_congr_padding _ _ _ fun hlow => paddingDigit_nonceSource s.inp hlow hk
        case isFalse =>
          intro hs
          obtain ⟨r, g, hdraws, hr, hnext⟩ :=
            deliver_outcome_of_responsive hs cap (encodedBlock s.inp .f1)
          exact ⟨r, g, plainField s.inp .f1 r, hdraws, hr,
            fun k hk => nib_plainField (by omega) .f1 r hk, hnext⟩

/-- Settles O41: the block is the PIN field, whose nibble map is `nib_plainField`. -/
theorem encodeFormatTwoResult : Obligations.EncodeFormatTwoResult := by
  refine ⟨decodeWord_encode .enc2, fun s => ?_⟩
  intro L
  rw [exec_enc2]
  split
  · rfl
  · split
    · rfl
    case isFalse _ hlen =>
      exact ⟨plainField s.inp .f2 [], fun k hk => nib_plainField (by omega) .f2 [] hk, rfl⟩

/-- Settles O42: the masked field of the draws; the padding digit is R173's formula. -/
theorem encodeFormatThreeResult : Obligations.EncodeFormatThreeResult := by
  refine ⟨decodeWord_encode .enc3, fun s => ?_⟩
  intro L n
  rw [exec_enc3]
  split
  · rfl
  · split
    · rfl
    case isFalse _ hlen =>
      intro hs
      obtain ⟨r, g, hdraws, hr, hnext⟩ :=
        deliver_outcome_of_responsive hs (14 - L) (encodedBlock s.inp .f3)
      refine ⟨r, g, combine (plainField s.inp .f3 r) s.inp.panField8, hdraws, hr, fun k hk => ?_,
        hnext⟩
      simp only [← padnib_eq_ofNat]
      exact nib_masked_plainField (by omega) .f3 r hk

/-- Settles O43: the first half is the PIN field, the second half the draws. -/
theorem encodeFormatFourResult : Obligations.EncodeFormatFourResult := by
  refine ⟨decodeWord_encode .enc4, fun s => ?_⟩
  intro L
  rw [exec_enc4]
  split
  · rfl
  · split
    · rfl
    case isFalse _ hlen =>
      intro hs
      obtain ⟨r, g, hdraws, hr, hnext⟩ := deliver_outcome_of_responsive hs 8 (encodedBlock s.inp .f4)
      refine ⟨r, g, joinHalves (plainField s.inp .f4 r) r, hdraws, hr, fun k hk => ?_,
        fun j hj => ?_, hnext⟩
      · rw [← nib_first8 _ _ hk, first8_joinHalves, nib_plainField (by omega) .f4 r hk]
        rfl
      · rw [byteAt_joinHalves _ _ _ (by omega), if_neg (by omega), Nat.add_sub_cancel_left]

/-- Settles O44: both deliver `pack` with control nibble 2 and fill 15. -/
theorem encodeFormatTwoIsPack : Obligations.EncodeFormatTwoIsPack := by
  intro s h4 h12
  refine ⟨s.doneWith (encodedBlock s.inp .f2 []), ?_, ?_⟩
  · rw [exec_enc2, if_neg (by omega), if_neg (by omega)]
  · rw [exec_pack, if_neg (by omega)]
    rfl

end Sys2Proof.Machine
end

section
/-! SUPPORT. The round trips (spec 44_encode R210): what an encoder that succeeds has made, and what the
decoder of the format and `DECODE` make of it. -/

namespace Sys2Proof.Machine

/-! ### What an encoder that succeeds has made -/

/-- What an encoder of `fmt` that ends with `ST_OK` has found and made: its operands are good, and its outputs
`o` are the format's block of them with some padding bytes. -/
structure EncodesTo (x : InputRegs) (fmt : Format) (o : OutputRegs) : Prop where
  four_le : 4 ≤ x.pinleni.toNat
  le_twelve : x.pinleni.toNat ≤ 12
  panOk : fmt.usesPan = true → panArgBad x = false
  block : ∃ S, o = { encodedBlock x fmt S with status := 0x00 }

/-- `y` holds the block that the encoder of `fmt` makes of `x` with the padding bytes `S`, and the same PAN
where the format reads one. -/
structure CarriesBlock (x : InputRegs) (fmt : Format) (S : List Byte) (y : InputRegs) : Prop where
  four_le : 4 ≤ x.pinleni.toNat
  le_twelve : x.pinleni.toNat ≤ 12
  blki : y.blki = (encodedBlock x fmt S).blko
  blkleni : y.blkleni = fmt.size
  pan : fmt.usesPan = true → samePan y x
  panOk : fmt.usesPan = true → panArgBad y = false

/-- The encoder of a format (30_encoding R104). -/
def Format.encoder : Format → Instr
  | .f0 => .enc0
  | .f1 => .enc1
  | .f2 => .enc2
  | .f3 => .enc3
  | .f4 => .enc4

/-- The decoder of a format (46_dispatch R262). -/
def Format.decoder : Format → Instr
  | .f0 => .dec0
  | .f1 => .dec1
  | .f2 => .dec2
  | .f3 => .dec3
  | .f4 => .dec4

theorem exec_decoder (fmt : Format) (s : State) : exec fmt.decoder s = .next (s.decodeBlock fmt) := by
  cases fmt <;> rfl

/-- `DECODE` runs the decoder of the format it identifies (46_dispatch R263). -/
theorem exec_decode_of_identify {s : State} {fmt : Format} (h : s.inp.identify = .ok fmt) :
    exec .decode s = .next (s.decodeBlock fmt) := by
  rw [← decodeBlock_clearOutputs]
  simp only [exec, execDecode, h]

/-- A checked plan that ends with `ST_OK` has passed its checks and delivered its outputs. -/
theorem delivers_of_status_ok {err : Option Code} {n : Nat} {out : List Byte → OutputRegs} {s t : State}
    (herr : err ≠ some .ok) (h : (Plan.checked err n out).outcome s = .next t) (hok : t.out.status = 0x00) :
    err = none ∧ ∃ r, t.out = { out r with status := 0x00 } := by
  cases err with
  | some c =>
    cases h
    exact absurd (congrArg some (c.toByte_eq_zero_iff.mp hok)) herr
  | none =>
    simp only [Plan.checked, Plan.outcome] at h
    split at h
    case h_1 => cases h
    case h_2 r g _ =>
      cases h
      exact ⟨rfl, r, rfl⟩

/-- What the checks of R200 have established when they pass. -/
theorem operands_of_encodeError_none {inp : InputRegs} {argBad : Bool} (h : encodeError inp argBad = none) :
    argBad = false ∧ 4 ≤ inp.pinleni.toNat ∧ inp.pinleni.toNat ≤ 12 := by
  rw [encodeError_eq inp argBad _ Iff.rfl] at h
  split_ifs at h with harg hlen
  exact ⟨Bool.eq_false_iff.mpr fun hbad => harg (.inr hbad), by omega, by omega⟩

theorem pinLength_of_encode1Error_none {inp : InputRegs} (h : encode1Error inp = none) :
    4 ≤ inp.pinleni.toNat ∧ inp.pinleni.toNat ≤ 12 := by
  rw [encode1Error_eq] at h
  split_ifs at h with _ hlen
  omega

/-- An encoder whose checks are those of R200 and that ends with `ST_OK` has passed them and delivers the
block of its format. -/
theorem checkedEncoder_delivers {fmt : Format} {argBad : Bool} {n : Nat} {s t : State}
    (hpan : fmt.usesPan = true → argBad = panArgBad s.inp)
    (h : (Plan.checked (encodeError s.inp argBad) n (encodedBlock s.inp fmt)).outcome s = .next t)
    (hok : t.out.status = 0x00) : EncodesTo s.inp fmt t.out := by
  obtain ⟨hnone, hout⟩ := delivers_of_status_ok (encodeError_ne_ok _ _) h hok
  obtain ⟨harg, h4, h12⟩ := operands_of_encodeError_none hnone
  exact ⟨h4, h12, fun hp => (hpan hp).symm.trans harg, hout⟩

/-- `ENC1` makes the same block of the host's nonce as of the same bytes drawn (R204). -/
theorem enc1_delivers {s t : State} (h : exec .enc1 s = .next t) (hok : t.out.status = 0x00) :
    EncodesTo s.inp .f1 t.out := by
  have herr := encode1Error_ne_ok s.inp
  rw [exec_of_commandPlan rfl, enc1Plan] at h
  split at h
  case isTrue =>
    obtain ⟨hnone, hout⟩ := delivers_of_status_ok herr h hok
    obtain ⟨h4, h12⟩ := pinLength_of_encode1Error_none hnone
    exact ⟨h4, h12, nofun, hout⟩
  case isFalse =>
    obtain ⟨hnone, _, hout⟩ := delivers_of_status_ok herr h hok
    obtain ⟨h4, h12⟩ := pinLength_of_encode1Error_none hnone
    exact ⟨h4, h12, nofun, _, hout⟩

/-- An encoder that ends with `ST_OK` has passed its checks and delivers the block of its format. -/
theorem encoder_delivers {fmt : Format} {s t : State} (h : exec fmt.encoder s = .next t)
    (hok : t.out.status = 0x00) : EncodesTo s.inp fmt t.out := by
  cases fmt with
  | f0 => exact checkedEncoder_delivers (fun _ => rfl) ((exec_of_commandPlan rfl).symm.trans h) hok
  | f1 => exact enc1_delivers h hok
  | f2 => exact checkedEncoder_delivers nofun ((exec_of_commandPlan rfl).symm.trans h) hok
  | f3 => exact checkedEncoder_delivers (fun _ => rfl) ((exec_of_commandPlan rfl).symm.trans h) hok
  | f4 => exact checkedEncoder_delivers nofun ((exec_of_commandPlan rfl).symm.trans h) hok

theorem encodedBlock_blkleno (inp : InputRegs) (fmt : Format) (S : List Byte) :
    (encodedBlock inp fmt S).blkleno = fmt.size := by
  cases fmt <;> rfl

/-- The first half of an encoder's block: the PIN field, masked for formats 0 and 3 (R208). -/
theorem first8_encodedBlock (inp : InputRegs) (fmt : Format) (S : List Byte) :
    first8 (encodedBlock inp fmt S).blko =
      if fmt.usesPan then combine (plainField inp fmt S) inp.panField8 else plainField inp fmt S := by
  cases fmt with
  | f4 => exact first8_joinHalves _ S
  | _ => exact first8_widen8 _

/-! ### What the decoders make of it -/

section
variable {x y : InputRegs} {fmt : Format} {S : List Byte} (h : CarriesBlock x fmt S y)
include h

/-- The decoder of the format with the same PAN looks at the PIN field again. -/
theorem decodedField_of_carriesBlock : decodedField y fmt = plainField x fmt S := by
  rw [decodedField, InputRegs.blk8, h.blki, first8_encodedBlock]
  split
  case isTrue hpan => rw [panField8_congr (h.pan hpan), combine_combine_cancel]
  case isFalse => rfl

/-- The PAN field masks nothing before nibble 4 (41_pan_field R151). -/
theorem nib_blki_of_carriesBlock {k : Nat} (hk : k < 4) : nib y.blki k = nib (plainField x fmt S) k := by
  rw [h.blki, ← nib_first8 _ _ (by omega), first8_encodedBlock]
  split
  · rw [nib_combine, InputRegs.panField8, nib_derive64 _ _ _ (by omega), panNibble, if_neg (by omega)]
    exact BitVec.xor_zero
  · rfl

theorem nib_plainField_of_carriesBlock {k : Nat} (hk : k < 16) :
    nib (plainField x fmt S) k =
      fieldNibble fmt.tag x.pini x.pinleni.toNat (paddingDigit fmt x.pinleni.toNat S) k :=
  nib_plainField (by have h12 := h.le_twelve; omega) fmt S hk

theorem control_of_carriesBlock : nib y.blki 0 = fmt.tag := by
  rw [nib_blki_of_carriesBlock h (by omega), nib_plainField_of_carriesBlock h (by omega)]
  rfl

theorem lengthNibble_of_carriesBlock : y.lengthNibble = BitVec.ofNat 4 x.pinleni.toNat := by
  rw [lengthNibble_eq, nib_blki_of_carriesBlock h (by omega), nib_plainField_of_carriesBlock h (by omega)]
  rfl

theorem toNat_lengthNibble_of_carriesBlock : y.lengthNibble.toNat = x.pinleni.toNat := by
  have h12 := h.le_twelve
  rw [lengthNibble_of_carriesBlock h, BitVec.toNat_ofNat]
  omega

theorem nib_digit_of_carriesBlock {k : Nat} (hk : k < x.pinleni.toNat) :
    nib (plainField x fmt S) (2 + k) = digitAt x.pini k := by
  have h12 := h.le_twelve
  rw [nib_plainField_of_carriesBlock h (by omega), fieldNibble, if_neg (by omega), if_neg (by omega),
    if_pos (by omega), Nat.add_sub_cancel_left]

theorem nib_padding_of_carriesBlock {k : Nat} (hlow : 2 + x.pinleni.toNat ≤ k) (hk : k < 16) :
    nib (plainField x fmt S) k = paddingDigit fmt x.pinleni.toNat S k := by
  rw [nib_plainField_of_carriesBlock h hk, fieldNibble, if_neg (by omega), if_neg (by omega),
    if_neg (by omega)]

theorem identify_of_carriesBlock : y.identify = .ok fmt := by
  rw [identify_eq, h.blkleni, control_of_carriesBlock h]
  cases fmt <;> rfl

/-- The block passes the checks of its decoder (45_decode R230). -/
theorem decodeError_of_carriesBlock : decodeError y fmt = none := by
  have hpan : (fmt.usesPan && panArgBad y) = true ↔ False := by
    cases hp : fmt.usesPan with
    | false => simp
    | true => simp [h.panOk hp]
  have hsize : fmt.size ≠ 0 := by cases fmt <;> decide
  have h4 := h.four_le
  have h12 := h.le_twelve
  rw [decodeError_eq y fmt False hpan, ← lengthNibble_eq, toNat_lengthNibble_of_carriesBlock h,
    control_of_carriesBlock h, h.blkleni, if_neg (not_or.mpr ⟨hsize, not_false⟩),
    if_neg (not_not.mpr rfl), if_neg (not_not.mpr rfl), if_neg (by omega)]

theorem firstByteOk_of_carriesBlock : firstByteOk y (plainField x fmt S) = true := by
  rw [firstByteOk, byteAt_eq_nibs, byteAt_eq_nibs y.blki, nib_blki_of_carriesBlock h (by omega),
    nib_blki_of_carriesBlock h (by omega)]
  exact beq_self_eq_true _

/-- The padding of the formats with a fill digit passes the fill check (45_decode R233). -/
theorem fillOk_of_carriesBlock {fill : Nibble} (hfill : ∀ k, paddingDigit fmt x.pinleni.toNat S k = fill) :
    fillOk (plainField x fmt S) y.lengthNibble.toNat fill = true := by
  rw [fillOk_iff, toNat_lengthNibble_of_carriesBlock h]
  intro k hlow hk
  rw [nib_padding_of_carriesBlock h hlow hk, hfill]

end

/-- The PIN is made of decimal digits. -/
def DecimalPin (inp : InputRegs) : Prop := ∀ k, k < inp.pinleni.toNat → (digitAt inp.pini k).toNat ≤ 9

/-- The padding of format 3 is always in its alphabet, the digits when they are decimal (45_decode R238). -/
theorem alphabetOk_of_carriesBlock {x y : InputRegs} {S : List Byte} (h : CarriesBlock x .f3 S y) :
    alphabetOk (plainField x .f3 S) y.lengthNibble.toNat = true ↔ DecimalPin x := by
  have hpadding : ∀ k, 2 + x.pinleni.toNat ≤ k → k < 16 →
      10 ≤ (nib (plainField x .f3 S) k).toNat := by
    intro k hlow hk
    rw [nib_padding_of_carriesBlock h hlow hk, paddingDigit, toNat_padnib]
    exact Nat.le_add_left _ _
  rw [alphabetOk_iff, toNat_lengthNibble_of_carriesBlock h, and_iff_left hpadding]
  constructor
  · intro hdigits k hk
    rw [← nib_digit_of_carriesBlock h hk]
    exact hdigits (2 + k) (by omega) (by omega)
  · intro hdecimal k hlow hk
    obtain ⟨j, rfl⟩ := Nat.exists_eq_add_of_le hlow
    rw [nib_digit_of_carriesBlock h (by omega)]
    exact hdecimal j (by omega)

/-- The integrity checks accept the block, except for a format 3 PIN with a digit above 9 (R202). -/
theorem integrityOk_of_carriesBlock {x y : InputRegs} {fmt : Format} {S : List Byte}
    (h : CarriesBlock x fmt S y) : integrityOk y fmt = true ↔ (fmt = .f3 → DecimalPin x) := by
  have hfield := decodedField_of_carriesBlock h
  have hfirst := firstByteOk_of_carriesBlock h
  cases fmt with
  | f0 =>
    rw [integrityOk, hfield, hfirst, fillOk_of_carriesBlock h (fill := 0xF) fun _ => rfl]
    exact iff_of_true rfl nofun
  | f1 => exact iff_of_true rfl nofun
  | f2 =>
    rw [integrityOk, hfield, fillOk_of_carriesBlock h (fill := 0xF) fun _ => rfl]
    exact iff_of_true rfl nofun
  | f3 =>
    rw [integrityOk, hfield, hfirst, Bool.true_and, alphabetOk_of_carriesBlock h]
    exact ⟨fun hdecimal _ => hdecimal, fun hdecimal => hdecimal rfl⟩
  | f4 =>
    rw [integrityOk, hfield, fillOk_of_carriesBlock h (fill := 0xA) fun _ => rfl]
    exact iff_of_true rfl nofun

/-- The digits the decoder reads are the PIN (R210). -/
theorem digits_of_carriesBlock {x y : InputRegs} {fmt : Format} {S : List Byte}
    (h : CarriesBlock x fmt S y) (tag : Nibble) :
    OutputRegs.digits (unpack (decodedField y fmt) y.blockPinLen) y.blockPinLen tag =
      deliveredPin (digitAt x.pini) x.pinleni.toNat tag := by
  have hlen : y.blockPinLen.toNat = x.pinleni.toNat := by
    rw [blockPinLen_toNat, toNat_lengthNibble_of_carriesBlock h]
  have hmask : maskLen y.blockPinLen = x.pinleni.toNat := by
    have h12 := h.le_twelve
    rw [maskLen_eq, hlen, Nat.mod_eq_of_lt (by omega)]
  refine digits_eq_deliveredPin (by rw [← hlen, BitVec.ofNat_toNat, BitVec.setWidth_eq]) fun k _ => ?_
  rw [unpack_getD, hmask, decodedField_of_carriesBlock h]
  split
  case isTrue hk => exact nib_digit_of_carriesBlock h hk
  case isFalse => rfl

/-- What both ways of decoding the block do, given the verdict of the integrity checks. -/
theorem decode_of_carriesBlock {x : InputRegs} {fmt : Format} {S : List Byte} {u t : State}
    (h : CarriesBlock x fmt S u.inp)
    (ht : t = if integrityOk u.inp fmt then
        u.doneWith (deliveredPin (digitAt x.pini) x.pinleni.toNat fmt.tag)
      else u.failedWith 0x05) :
    exec fmt.decoder u = .next t ∧ exec .decode u = .next t := by
  have hblock : u.decodeBlock fmt = t := by
    rw [ht, decodeBlock_eq, decodeError_of_carriesBlock h, ← digits_of_carriesBlock h]
  rw [exec_decoder, exec_decode_of_identify (identify_of_carriesBlock h), hblock]
  exact ⟨rfl, rfl⟩

/-! ### Encoding, then decoding -/

section
variable {fmt : Format} {s t u : State} (henc : exec fmt.encoder s = .next t) (hok : t.out.status = 0x00)
  (hblk : u.inp.blki = t.out.blko) (hlen : u.inp.blkleni = t.out.blkleno)
  (hpan : fmt.usesPan = true → u.inp.pan = s.inp.pan ∧ u.inp.panlen = s.inp.panlen)
include henc hok hblk hlen hpan

/-- Moving an encoder's output to the block operand carries its block over. -/
theorem carriesBlock_of_encoder : ∃ S, CarriesBlock s.inp fmt S u.inp := by
  obtain ⟨h4, h12, hpanOk, S, hout⟩ := encoder_delivers henc hok
  have hsame : fmt.usesPan = true → samePan u.inp s.inp := fun hp => by
    obtain ⟨hbytes, hpanlen⟩ := hpan hp
    exact ⟨hpanlen, fun k _ => by rw [hbytes]⟩
  refine ⟨S, h4, h12, by rw [hblk, hout], ?_, hsame, fun hp => ?_⟩
  · rw [hlen, hout]
    exact encodedBlock_blkleno s.inp fmt S
  · rw [panArgBad_congr (hsame hp), hpanOk hp]

/-- The decoder and `DECODE` deliver the PIN that was encoded (R210). -/
theorem decode_of_encoder (hdigits : fmt = .f3 → DecimalPin s.inp) :
    exec fmt.decoder u =
      .next (u.doneWith (deliveredPin (digitAt s.inp.pini) s.inp.pinleni.toNat fmt.tag)) ∧
    exec .decode u =
      .next (u.doneWith (deliveredPin (digitAt s.inp.pini) s.inp.pinleni.toNat fmt.tag)) := by
  obtain ⟨S, h⟩ := carriesBlock_of_encoder henc hok hblk hlen hpan
  exact decode_of_carriesBlock h (by rw [if_pos ((integrityOk_of_carriesBlock h).mpr hdigits)])

/-- A PIN of format 3 with a digit above 9 is encoded and then fails to decode (R202). -/
theorem decode_of_encoder_of_notDecimal (hfmt : fmt = .f3) (hdigits : ¬ DecimalPin s.inp) :
    exec fmt.decoder u = .next (u.failedWith 0x05) ∧ exec .decode u = .next (u.failedWith 0x05) := by
  obtain ⟨S, h⟩ := carriesBlock_of_encoder henc hok hblk hlen hpan
  have hbad : ¬ integrityOk u.inp fmt = true := fun hgood =>
    hdigits ((integrityOk_of_carriesBlock h).mp hgood hfmt)
  exact decode_of_carriesBlock h (by rw [if_neg hbad])

end

/-! ### The statements -/

/-- Settles O57: format 0 reads the same PAN and takes every digit value. -/
theorem roundTripFormatZero : Obligations.RoundTripFormatZero :=
  fun _ _ _ henc hok hblk hlen hpan hpanlen =>
    decode_of_encoder (fmt := .f0) henc hok hblk hlen (fun _ => ⟨hpan, hpanlen⟩) nofun

/-- Settles O58: by whether the PIN is decimal, which is all that format 3's alphabet check asks of it. -/
theorem roundTripFormatThree : Obligations.RoundTripFormatThree := by
  intro s t u henc hok hblk hlen hpan hpanlen L
  have h12 := (encoder_delivers (fmt := .f3) henc hok).le_twelve
  have hpanSame : Format.f3.usesPan = true → u.inp.pan = s.inp.pan ∧ u.inp.panlen = s.inp.panlen :=
    fun _ => ⟨hpan, hpanlen⟩
  split
  case isTrue hdecimal =>
    exact decode_of_encoder (fmt := .f3) henc hok hblk hlen hpanSame
      fun _ k hk => hdecimal ⟨k, by omega⟩ hk
  case isFalse hdecimal =>
    exact decode_of_encoder_of_notDecimal (fmt := .f3) henc hok hblk hlen hpanSame rfl
      fun hpin => hdecimal fun k hk => hpin k hk

/-- Settles O59: the three formats read no PAN and take every digit value. -/
theorem roundTripUnmaskedFormats : Obligations.RoundTripUnmaskedFormats :=
  fun _ _ _ hok hblk hlen =>
    ⟨fun henc => decode_of_encoder (fmt := .f1) henc hok hblk hlen nofun nofun,
      fun henc => decode_of_encoder (fmt := .f2) henc hok hblk hlen nofun nofun,
      fun henc => decode_of_encoder (fmt := .f4) henc hok hblk hlen nofun nofun⟩

end Sys2Proof.Machine
end

section
/-! SUPPORT. The decoders (spec 45_decode R230 to R240): what each `DEC` does past its checks, nibble by nibble
of the field it looks at, and what `DEC0` does with a block that `ENC0` made for another PAN. -/

namespace Sys2Proof.Machine

/-! ### The field a decoder looks at -/

/-- Nibble `k` of the field a decoder looks at: unmasked by the PAN field for formats 0 and 3 (R235 to
R239). -/
def decodedNibble (inp : InputRegs) (fmt : Format) (k : Nat) : Nibble :=
  if fmt.usesPan then nib inp.blki k ^^^ panNibble inp.pan inp.panlen.toNat k else nib inp.blki k

section
variable (inp : InputRegs) (fmt : Format)

theorem nib_decodedField {k : Nat} (hk : k < 16) :
    nib (decodedField inp fmt) k = decodedNibble inp fmt k := by
  rw [decodedField, decodedNibble]
  split
  · rw [nib_combine, InputRegs.blk8, nib_first8 _ _ hk, InputRegs.panField8, nib_derive64 _ _ _ hk]
  · exact nib_first8 _ _ hk

/-- The PAN field masks nothing before nibble 4 (41_pan_field R151). -/
theorem decodedNibble_of_lt_four {k : Nat} (hk : k < 4) : decodedNibble inp fmt k = nib inp.blki k := by
  rw [decodedNibble]
  split
  · rw [panNibble, if_neg (by omega)]
    exact BitVec.xor_zero
  · rfl

/-- The first-byte check of R232 accepts the field of every decoder. -/
theorem firstByteOk_decodedField : firstByteOk inp (decodedField inp fmt) = true := by
  have hnib {k : Nat} (hk : k < 2) : nib (decodedField inp fmt) k = nib inp.blki k :=
    (nib_decodedField inp fmt (by omega)).trans (decodedNibble_of_lt_four inp fmt (by omega))
  rw [firstByteOk, byteAt_eq_nibs, byteAt_eq_nibs inp.blki, hnib (by omega), hnib (by omega)]
  exact beq_self_eq_true _

/-! ### The integrity checks, nibble by nibble -/

/-- A range of the field has no nibble outside `p` when every nibble of it satisfies `p`. -/
theorem forall_nib_decodedField_iff {lo hi : Nat} (hhi : hi ≤ 16) (p : Nibble → Prop) :
    (∀ k, lo ≤ k → k < hi → p (nib (decodedField inp fmt) k)) ↔
      ¬ ∃ k : Fin 16, lo ≤ k.val ∧ k.val < hi ∧ ¬ p (decodedNibble inp fmt k.val) := by
  constructor
  · rintro hall ⟨k, hlow, hhigh, hbad⟩
    exact hbad (nib_decodedField inp fmt k.isLt ▸ hall k hlow hhigh)
  · intro hnone k hlow hhigh
    have hk : k < 16 := by omega
    rw [nib_decodedField inp fmt hk]
    by_contra hbad
    exact hnone ⟨⟨k, hk⟩, hlow, hhigh, hbad⟩

/-- The fill check fails for a nibble from `2 + L` on that is not the fill digit (R233). -/
theorem fillOk_decodedField_iff (fill : Nibble) :
    fillOk (decodedField inp fmt) inp.lengthNibble.toNat fill = true ↔
      ¬ ∃ k : Fin 16, 2 + (nib inp.blki 1).toNat ≤ k.val ∧ decodedNibble inp fmt k.val ≠ fill := by
  rw [fillOk_iff, lengthNibble_eq, forall_nib_decodedField_iff inp fmt le_rfl (· = fill)]
  simp only [Fin.is_lt, true_and, ne_eq]

/-- The alphabet check fails for a digit above 9 or a padding nibble below 0xA (R238). -/
theorem alphabetOk_decodedField_iff (h12 : (nib inp.blki 1).toNat ≤ 12) :
    alphabetOk (decodedField inp fmt) inp.lengthNibble.toNat = true ↔
      ¬ ((∃ k : Fin 16, 2 ≤ k.val ∧ k.val < 2 + (nib inp.blki 1).toNat ∧
          9 < (decodedNibble inp fmt k.val).toNat) ∨
        ∃ k : Fin 16, 2 + (nib inp.blki 1).toNat ≤ k.val ∧
          (decodedNibble inp fmt k.val).toNat < 10) := by
  rw [alphabetOk_iff, lengthNibble_eq, not_or,
    forall_nib_decodedField_iff inp fmt (by omega) (fun v => v.toNat ≤ 9),
    forall_nib_decodedField_iff inp fmt le_rfl (fun v => 10 ≤ v.toNat)]
  simp only [Fin.is_lt, true_and, not_le]

theorem integrityOk_f0_iff :
    integrityOk inp .f0 = true ↔
      ¬ ∃ k : Fin 16, 2 + (nib inp.blki 1).toNat ≤ k.val ∧ decodedNibble inp .f0 k.val ≠ 0xF := by
  rw [integrityOk, firstByteOk_decodedField, Bool.true_and, fillOk_decodedField_iff]

theorem integrityOk_f3_iff (h12 : (nib inp.blki 1).toNat ≤ 12) :
    integrityOk inp .f3 = true ↔
      ¬ ((∃ k : Fin 16, 2 ≤ k.val ∧ k.val < 2 + (nib inp.blki 1).toNat ∧
          9 < (decodedNibble inp .f3 k.val).toNat) ∨
        ∃ k : Fin 16, 2 + (nib inp.blki 1).toNat ≤ k.val ∧
          (decodedNibble inp .f3 k.val).toNat < 10) := by
  rw [integrityOk, firstByteOk_decodedField, Bool.true_and, alphabetOk_decodedField_iff inp .f3 h12]

end

/-! ### The commands -/

/-- The digits of the field, their number and the format, as the statements describe them (R234). -/
theorem digits_decodedField (inp : InputRegs) (fmt : Format) :
    OutputRegs.digits (unpack (decodedField inp fmt) inp.blockPinLen) inp.blockPinLen fmt.tag =
      deliveredPin (fun k => decodedNibble inp fmt (2 + k)) (nib inp.blki 1).toNat fmt.tag := by
  have hlen := toNat_blockPinLen inp
  have hmask : maskLen inp.blockPinLen = (nib inp.blki 1).toNat := by
    rw [maskLen_eq, hlen, Nat.mod_eq_of_lt (nib inp.blki 1).isLt]
  refine digits_eq_deliveredPin (by rw [← hlen, BitVec.ofNat_toNat, BitVec.setWidth_eq]) fun k hk => ?_
  rw [unpack_getD, hmask, nib_decodedField inp fmt (by omega)]

theorem decoder_fails {s : State} {fmt : Format} {c : Code} (herr : decodeError s.inp fmt = some c) :
    exec fmt.decoder s = .next (s.failedWith c.toByte) := by
  rw [exec_decoder, decodeBlock_eq, herr]

/-- Checks (1) to (4) of R230 in their order; `A` is the decoder's argument error, `R` what it does past the
checks. -/
theorem decoder_checks (s : State) (fmt : Format) {A R : Prop} [Decidable A]
    (hA : (s.inp.blkleni = 0 ∨ (fmt.usesPan && panArgBad s.inp) = true) ↔ A)
    (hR : decodeError s.inp fmt = none → R) :
    if A then exec fmt.decoder s = .next (s.failedWith 0x01)
    else if s.inp.blkleni ≠ fmt.size then exec fmt.decoder s = .next (s.failedWith 0x03)
    else if nib s.inp.blki 0 ≠ fmt.tag then exec fmt.decoder s = .next (s.failedWith 0x04)
    else if (nib s.inp.blki 1).toNat < 4 ∨ 12 < (nib s.inp.blki 1).toNat then
      exec fmt.decoder s = .next (s.failedWith 0x02)
    else R := by
  have herr := decodeError_eq s.inp fmt _ Iff.rfl
  simp only [hA] at herr
  split_ifs at herr ⊢
  · exact decoder_fails herr
  · exact decoder_fails herr
  · exact decoder_fails herr
  · exact decoder_fails herr
  · exact hR herr

section
variable {s : State} {fmt : Format} (herr : decodeError s.inp fmt = none)
include herr

/-- A decoder that has nothing left to object to delivers the PIN (R234). -/
theorem decoder_delivers (hgood : integrityOk s.inp fmt = true) :
    exec fmt.decoder s = .next (s.doneWith
      (deliveredPin (fun k => decodedNibble s.inp fmt (2 + k)) (nib s.inp.blki 1).toNat fmt.tag)) := by
  rw [exec_decoder, decodeBlock_eq, herr, hgood, ← digits_decodedField]
  rfl

/-- Check (5) and step (6) of R230; `Q` says what the integrity check objects to. -/
theorem decoder_verdict {Q : Prop} [Decidable Q] (hQ : integrityOk s.inp fmt = true ↔ ¬ Q) :
    if Q then exec fmt.decoder s = .next (s.failedWith 0x05)
    else exec fmt.decoder s = .next (s.doneWith
      (deliveredPin (fun k => decodedNibble s.inp fmt (2 + k)) (nib s.inp.blki 1).toNat fmt.tag)) := by
  split
  case isTrue hbad =>
    have hverdict : integrityOk s.inp fmt = false := Bool.eq_false_iff.mpr fun hgood => hQ.mp hgood hbad
    rw [exec_decoder, decodeBlock_eq, herr, hverdict]
    rfl
  case isFalse hgood => exact decoder_delivers herr (hQ.mpr hgood)

end

/-- The decoders without a PAN have no argument but the block length (R236, R237, R239). -/
theorem argumentError_iff_of_not_usesPan (s : State) {fmt : Format} (hpan : fmt.usesPan = false) :
    (s.inp.blkleni = 0 ∨ (fmt.usesPan && panArgBad s.inp) = true) ↔ s.inp.blkleni = 0 := by
  simp [hpan]

/-! ### A block of `ENC0` decoded with another PAN -/

section
variable (fmt : Nibble) (d : Vector Nibble 12) {L k : Nat} (p : Nat → Nibble)

theorem fieldNibble_digit (hk : k < L) : fieldNibble fmt d L p (2 + k) = digitAt d k := by
  rw [fieldNibble, if_neg (by omega), if_neg (by omega), if_pos (by omega), Nat.add_sub_cancel_left]

theorem fieldNibble_padding (hk : 2 + L ≤ k) : fieldNibble fmt d L p k = p k := by
  rw [fieldNibble, if_neg (by omega), if_neg (by omega), if_neg (by omega)]

end

/-- The difference of the two PAN fields at nibble `k` (R240). -/
def panDifference (x y : InputRegs) (k : Nat) : Nibble :=
  panNibble x.pan x.panlen.toNat k ^^^ panNibble y.pan y.panlen.toNat k

section
variable {s t u : State} (henc : exec .enc0 s = .next t) (hok : t.out.status = 0x00)
  (hblk : u.inp.blki = t.out.blko)
include henc hok hblk

/-- Unmasking with another PAN leaves the PIN field XOR the difference of the PAN fields (R240). -/
theorem decodedNibble_of_enc0 {k : Nat} (hk : k < 16) :
    decodedNibble u.inp .f0 k =
      fieldNibble 0 s.inp.pini s.inp.pinleni.toNat (fun _ => 0xF) k ^^^ panDifference s.inp u.inp k := by
  obtain ⟨-, h12, -, S, hout⟩ := encoder_delivers (fmt := .f0) henc hok
  have hblock : nib u.inp.blki k = fieldNibble 0 s.inp.pini s.inp.pinleni.toNat (fun _ => 0xF) k ^^^
      panNibble s.inp.pan s.inp.panlen.toNat k := by
    rw [hblk, hout, ← nib_first8 _ _ hk, first8_encodedBlock]
    exact nib_masked_plainField (by omega) .f0 S hk
  calc decodedNibble u.inp .f0 k
      = nib u.inp.blki k ^^^ panNibble u.inp.pan u.inp.panlen.toNat k := rfl
    _ = _ := by rw [hblock, panDifference, BitVec.xor_assoc]

/-- Byte 0 is not masked, so its nibbles are the control nibble and the length (R232). -/
theorem nib_blki_of_enc0 {k : Nat} (hk : k < 2) :
    nib u.inp.blki k = fieldNibble 0 s.inp.pini s.inp.pinleni.toNat (fun _ => 0xF) k := by
  have hzero : panDifference s.inp u.inp k = 0 := by
    rw [panDifference, panNibble, panNibble, if_neg (by omega), if_neg (by omega)]
    exact BitVec.xor_zero
  rw [← decodedNibble_of_lt_four u.inp .f0 (by omega), decodedNibble_of_enc0 henc hok hblk (by omega), hzero]
  exact BitVec.xor_zero

theorem toNat_lengthNibble_of_enc0 : (nib u.inp.blki 1).toNat = s.inp.pinleni.toNat := by
  have h12 := (encoder_delivers (fmt := .f0) henc hok).le_twelve
  rw [nib_blki_of_enc0 henc hok hblk (by omega)]
  exact Nat.mod_eq_of_lt (by omega)

/-- The block passes checks (1) to (4) of `DEC0` with every PAN that is an argument (R230). -/
theorem decodeError_of_enc0 (hlen : u.inp.blkleni = t.out.blkleno)
    (hpan : ¬ (u.inp.panlen.toNat = 0 ∨ 10 < u.inp.panlen.toNat)) : decodeError u.inp .f0 = none := by
  obtain ⟨h4, h12, -, S, hout⟩ := encoder_delivers (fmt := .f0) henc hok
  have hsize : u.inp.blkleni = Format.f0.size := by rw [hlen, hout]; rfl
  have htag : nib u.inp.blki 0 = Format.f0.tag := nib_blki_of_enc0 henc hok hblk (by omega)
  have hL := toNat_lengthNibble_of_enc0 henc hok hblk
  rw [decodeError_eq u.inp .f0 _ (panArgBad_iff u.inp),
    if_neg (not_or.mpr ⟨by rw [hsize]; decide, hpan⟩), if_neg (not_not.mpr hsize),
    if_neg (not_not.mpr htag), if_neg (by omega)]

/-- The fill check sees the difference of the PAN fields from nibble `2 + L` on, and nothing else (R240). -/
theorem integrityOk_of_enc0 :
    integrityOk u.inp .f0 = true ↔
      ¬ ∃ k : Fin 16, 2 + s.inp.pinleni.toNat ≤ k.val ∧ panDifference s.inp u.inp k.val ≠ 0 := by
  rw [integrityOk_f0_iff, toNat_lengthNibble_of_enc0 henc hok hblk]
  refine not_congr (exists_congr fun k => and_congr_right fun hk => not_congr ?_)
  rw [decodedNibble_of_enc0 henc hok hblk k.isLt, fieldNibble_padding _ _ _ hk]
  exact xor_left_eq_self_iff

/-- The digits come out XORed with the difference of the PAN fields (R240). -/
theorem deliveredPin_of_enc0 (tag : Nibble) :
    deliveredPin (fun k => decodedNibble u.inp .f0 (2 + k)) (nib u.inp.blki 1).toNat tag =
      deliveredPin (fun k => digitAt s.inp.pini k ^^^ panDifference s.inp u.inp (2 + k))
        s.inp.pinleni.toNat tag := by
  rw [toNat_lengthNibble_of_enc0 henc hok hblk]
  refine deliveredPin_congr fun k hk _ => ?_
  rw [decodedNibble_of_enc0 henc hok hblk (by omega), fieldNibble_digit _ _ _ hk]

end

/-! ### The statements -/

/-- Settles O50: byte 0 of the PAN field is zero. -/
theorem firstByteCheckNeverFails : Obligations.FirstByteCheckNeverFails :=
  fun inp => firstByteOk_decodedField inp .f0

/-- Settles O45: the checks, then the fill check of the unmasked nibbles; the first-byte check adds nothing. -/
theorem decodeFormatZeroResult : Obligations.DecodeFormatZeroResult :=
  ⟨decodeWord_encode .dec0, fun s =>
    decoder_checks s .f0 (or_congr_right (panArgBad_iff s.inp)) fun herr =>
      decoder_verdict herr (integrityOk_f0_iff s.inp)⟩

/-- Settles O46: past the checks format 1 has no integrity check to fail. -/
theorem decodeFormatOneResult : Obligations.DecodeFormatOneResult :=
  ⟨decodeWord_encode .dec1, fun s =>
    decoder_checks s .f1 (argumentError_iff_of_not_usesPan s rfl) fun herr => decoder_delivers herr rfl⟩

/-- Settles O47: the checks, then the fill check with 0xF. -/
theorem decodeFormatTwoResult : Obligations.DecodeFormatTwoResult :=
  ⟨decodeWord_encode .dec2, fun s =>
    decoder_checks s .f2 (argumentError_iff_of_not_usesPan s rfl) fun herr =>
      decoder_verdict herr (fillOk_decodedField_iff s.inp .f2 0xF)⟩

/-- Settles O48: the checks, then the two alphabets; the length is at most 12 by then. -/
theorem decodeFormatThreeResult : Obligations.DecodeFormatThreeResult := by
  refine ⟨decodeWord_encode .dec3, fun s =>
    decoder_checks s .f3 (or_congr_right (panArgBad_iff s.inp)) fun herr => ?_⟩
  obtain ⟨-, -, -, -, h12⟩ := operands_of_decodeError_none herr
  exact decoder_verdict herr (integrityOk_f3_iff s.inp h12)

/-- Settles O49: the checks, then the fill check with 0xA; the field is bytes 0 to 7 of the block. -/
theorem decodeFormatFourResult : Obligations.DecodeFormatFourResult :=
  ⟨decodeWord_encode .dec4, fun s =>
    decoder_checks s .f4 (argumentError_iff_of_not_usesPan s rfl) fun herr =>
      decoder_verdict herr (fillOk_decodedField_iff s.inp .f4 0xA)⟩

/-- Settles O60: the PAN fields' difference is all that is left of the two PANs once `DEC0` has unmasked. -/
theorem wrongPanDetectionFormatZero : Obligations.WrongPanDetectionFormatZero := by
  intro s t u henc hok hblk hlen h1 h10
  have herr := decodeError_of_enc0 henc hok hblk hlen (by omega)
  have hverdict := decoder_verdict herr (integrityOk_of_enc0 henc hok hblk)
  rw [deliveredPin_of_enc0 henc hok hblk] at hverdict
  exact hverdict

end Sys2Proof.Machine
end

section
/-! SUPPORT. The dispatcher (spec 46_dispatch R260 to R264): which operands identify which format, and what
`GETFMT` and `DECODE` do with the answer. -/

namespace Sys2Proof.Machine

/-! ### The table of lengths and control nibbles -/

theorem Format.tag_injective : Function.Injective Format.tag := by
  intro a b h
  cases a <;> cases b <;> cases h <;> rfl

section
variable {inp : InputRegs}

/-- A format is identified by its size and its tag (R260). -/
theorem identify_eq_ok_iff {fmt : Format} :
    inp.identify = .ok fmt ↔ inp.blkleni = fmt.size ∧ nib inp.blki 0 = fmt.tag := by
  constructor
  · intro h
    refine ⟨?_, controlNibble_of_identify h⟩
    rw [identify_eq] at h
    split_ifs at h <;> cases h <;>
      exact BitVec.eq_of_toNat_eq (by simp only [Format.size, BitVec.reduceToNat]; omega)
  · rintro ⟨hsize, htag⟩
    rw [identify_eq, hsize, htag]
    cases fmt <;> rfl

/-- The pairs of length and control nibble that have a format (R260). -/
theorem exists_identify_ok_iff :
    (∃ fmt, inp.identify = .ok fmt) ↔
      (inp.blkleni.toNat = 8 ∧ (nib inp.blki 0).toNat ≤ 3) ∨
        (inp.blkleni.toNat = 16 ∧ (nib inp.blki 0).toNat = 4) := by
  simp only [identify_eq_ok_iff, ← BitVec.toNat_inj]
  constructor
  · rintro ⟨fmt, hsize, htag⟩
    rw [hsize, htag]
    cases fmt <;> decide
  · rintro (⟨hsize, hle⟩ | ⟨hsize, htag⟩)
    · rw [hsize]
      interval_cases (nib inp.blki 0).toNat
      · exact ⟨.f0, rfl, rfl⟩
      · exact ⟨.f1, rfl, rfl⟩
      · exact ⟨.f2, rfl, rfl⟩
      · exact ⟨.f3, rfl, rfl⟩
    · exact ⟨.f4, hsize, htag⟩

theorem identify_of_emptyBlock (h : inp.blkleni.toNat = 0) : inp.identify = .error .arg := by
  rw [identify_eq, if_pos h]

theorem identify_of_badSize (h0 : inp.blkleni.toNat ≠ 0)
    (h : inp.blkleni.toNat ≠ 8 ∧ inp.blkleni.toNat ≠ 16) :
    inp.identify = .error .size := by
  rw [identify_eq, if_neg h0, if_pos h]

/-- A good length whose control nibble has no format at that length (R260). -/
theorem identify_of_noFormat (hsize : inp.blkleni.toNat = 8 ∨ inp.blkleni.toNat = 16)
    (hnone : ¬ ∃ fmt, inp.identify = .ok fmt) : inp.identify = .error .format := by
  cases hid : inp.identify with
  | ok fmt => exact absurd ⟨fmt, hid⟩ hnone
  | error c =>
    rw [identify_eq, if_neg (by omega), if_neg (by omega)] at hid
    split_ifs at hid <;> cases hid <;> rfl

theorem ne_ok_of_identify_error {c : Code} (h : inp.identify = .error c) : c ≠ .ok := by
  rw [identify_eq] at h
  split_ifs at h <;> cases h <;> decide

end

/-! ### The commands -/

section
variable {s : State}

/-- No decoder runs when there is no format (R262): both commands fail as `ident` does. -/
theorem exec_dispatcher_of_identify_error {i : Instr} (hi : i = .getfmt ∨ i = .decode) {c : Code}
    (h : s.inp.identify = .error c) : exec i s = .next (s.failedWith c.toByte) := by
  rcases hi with rfl | rfl
  · simp only [exec, execGetfmt, h]
    rfl
  · simp only [exec, execDecode, h]
    rfl

theorem exec_getfmt_of_identify {fmt : Format} (h : s.inp.identify = .ok fmt) :
    exec .getfmt s = .next (s.doneWith (.formatTag fmt.tag)) := by
  simp only [exec, execGetfmt, h]
  rfl

/-- `GETFMT` ends with `ST_OK` only when it has a format, and then it leaves the tag (R261). -/
theorem identify_of_getfmt {t : State} (h : exec .getfmt s = .next t) (hok : t.out.status = 0x00) :
    ∃ fmt, s.inp.identify = .ok fmt ∧ t = s.doneWith (.formatTag fmt.tag) := by
  cases hid : s.inp.identify with
  | error c =>
    rw [exec_dispatcher_of_identify_error (.inl rfl) hid] at h
    cases h
    exact absurd (c.toByte_eq_zero_iff.mp hok) (ne_ok_of_identify_error hid)
  | ok fmt =>
    rw [exec_getfmt_of_identify hid] at h
    exact ⟨fmt, rfl, (Host.Outcome.next.inj h).symm⟩

theorem exec_decode_eq_decoder {fmt : Format} (h : s.inp.identify = .ok fmt) :
    exec .decode s = exec fmt.decoder s := by
  rw [exec_decode_of_identify h, exec_decoder]

/-- The routing of R262, by the values of the length and the control nibble. -/
theorem decode_routes {fmt : Format} (hsize : s.inp.blkleni.toNat = fmt.size.toNat)
    (htag : (nib s.inp.blki 0).toNat = fmt.tag.toNat) :
    ∃ t, exec fmt.decoder s = .next t ∧ exec .decode s = .next t := by
  have hid : s.inp.identify = .ok fmt :=
    identify_eq_ok_iff.mpr ⟨BitVec.eq_of_toNat_eq hsize, BitVec.eq_of_toNat_eq htag⟩
  exact ⟨s.decodeBlock fmt, exec_decoder fmt s, exec_decode_of_identify hid⟩

/-- A decoder reads no output and no scratch that a command before it has left. -/
theorem decodeBlock_doneWith (o : OutputRegs) (fmt : Format) :
    (s.doneWith o).decodeBlock fmt = s.decodeBlock fmt := by
  rw [decodeBlock_eq, decodeBlock_eq]
  rfl

/-- The decoder whose tag `GETFMT` has left does what `DECODE` does (R264). -/
theorem decoder_of_getfmt {t : State} (h : exec .getfmt s = .next t) (hok : t.out.status = 0x00)
    {fmt : Format} (htag : t.out.fmto = fmt.tag) :
    ∃ u, exec fmt.decoder t = .next u ∧ exec .decode s = .next u := by
  obtain ⟨fmt', hid, rfl⟩ := identify_of_getfmt h hok
  obtain rfl : fmt' = fmt := Format.tag_injective htag
  refine ⟨s.decodeBlock fmt', ?_, exec_decode_of_identify hid⟩
  rw [exec_decoder, decodeBlock_doneWith]

end

/-! ### The statements -/

/-- Settles O51: by the rows of the table of R260. -/
theorem getfmtResult : Obligations.GetfmtResult := by
  refine ⟨decodeWord_encode .getfmt, fun s => ?_⟩
  intro len c
  split_ifs with hempty hsize hformat
  · exact exec_dispatcher_of_identify_error (.inl rfl) (identify_of_emptyBlock hempty)
  · exact exec_dispatcher_of_identify_error (.inl rfl) (identify_of_badSize hempty hsize)
  · obtain ⟨fmt, hid⟩ := exists_identify_ok_iff.mpr hformat
    rw [exec_getfmt_of_identify hid, controlNibble_of_identify hid]
    rfl
  · exact exec_dispatcher_of_identify_error (.inl rfl)
      (identify_of_noFormat (by omega) (mt exists_identify_ok_iff.mp hformat))

/-- Settles O52: the failures are those of `ident`, and each format is its own row of R262. -/
theorem decodeRoutesToTheFormatsDecoder : Obligations.DecodeRoutesToTheFormatsDecoder := by
  refine ⟨decodeWord_encode .decode, fun s => ?_⟩
  intro len c
  have hfails {code : Code} (hid : s.inp.identify = .error code) :
      exec .decode s = .next (s.failedWith code.toByte) :=
    exec_dispatcher_of_identify_error (.inr rfl) hid
  exact ⟨fun hempty => hfails (identify_of_emptyBlock hempty),
    fun hempty h8 h16 => hfails (identify_of_badSize hempty ⟨h8, h16⟩),
    decode_routes (fmt := .f0),
    decode_routes (fmt := .f1),
    decode_routes (fmt := .f2),
    decode_routes (fmt := .f3),
    decode_routes (fmt := .f4),
    fun h8 hc => hfails (identify_of_noFormat (.inl h8) (mt exists_identify_ok_iff.mp (by omega))),
    fun h16 hc => hfails (identify_of_noFormat (.inr h16) (mt exists_identify_ok_iff.mp (by omega)))⟩

/-- Settles O53: `DECODE` runs `DEC2`, whose every check passes, and no check of `DEC2` reads the PAN. -/
theorem decodeDeliversAFormatTwoPin : Obligations.DecodeDeliversAFormatTwoPin := by
  intro s L hsize htag h4 h12 hfill
  have hid : s.inp.identify = .ok .f2 := identify_eq_ok_iff.mpr ⟨hsize, htag⟩
  have hnofault : ¬ ∃ k : Fin 16, 2 + L ≤ k.val ∧ nib s.inp.blki k.val ≠ 0xF :=
    fun ⟨k, hk, hbad⟩ => hbad (hfill k hk k.isLt)
  have hdec2 := decodeFormatTwoResult.2 s
  rw [if_neg (by rw [hsize]; decide), if_neg (not_not.mpr hsize), if_neg (not_not.mpr htag),
    if_neg (by omega), if_neg hnofault] at hdec2
  exact (exec_decode_eq_decoder hid).trans hdec2

/-- Settles O54: `GETFMT` changes outputs and scratch alone, which no decoder reads. -/
theorem getfmtThenDecoderIsDecode : Obligations.GetfmtThenDecoderIsDecode := by
  intro s t h hok
  refine ⟨decoder_of_getfmt h hok (fmt := .f0), decoder_of_getfmt h hok (fmt := .f1),
    decoder_of_getfmt h hok (fmt := .f2), decoder_of_getfmt h hok (fmt := .f3),
    decoder_of_getfmt h hok (fmt := .f4), ?_⟩
  obtain ⟨fmt, -, rfl⟩ := identify_of_getfmt h hok
  exact fmt.tag_le

end Sys2Proof.Machine
end

section
/-! SUPPORT. The control commands, reset and the idle step (spec 47_control R280, R282, 70_reset_and_hazards
R340 to R342): where every register reads zero, and which words are no `NOP`. -/

namespace Sys2Proof.Machine

/-! ### Zero registers -/

/-- With inputs and outputs zero every register of the index map reads zero (10_state R49, R58). -/
theorem readReg_of_zero {s : State} (hinp : s.inp = .zero) (hout : s.out = .zero) (r : Reg) :
    s.readReg r = 0 := by
  cases r <;> simp [State.readReg, hinp, hout, InputRegs.zero, OutputRegs.zero]

theorem getElem_zero_pf (k : Fin 16) : ScratchRegs.zero.pf[k] = 0 := Vector.getElem_replicate k.isLt

theorem getElem_zero_nf (k : Fin 16) : ScratchRegs.zero.nf[k] = 0 := Vector.getElem_replicate k.isLt

/-- Settles O13: reset and `CLR` leave the zero registers. -/
theorem resetZeroesEveryRegister : Obligations.ResetZeroesEveryRegister :=
  ⟨readReg_of_zero rfl rfl, fun k => ⟨getElem_zero_pf k, getElem_zero_nf k⟩, fun _ => rfl⟩

/-- Settles O15: `CLR` completes with the zero registers. -/
theorem clrZeroesEveryRegister : Obligations.ClrZeroesEveryRegister :=
  ⟨decodeWord_encode .clr, fun s => ⟨s.zeroRegisters, rfl, readReg_of_zero rfl rfl,
    fun k => ⟨getElem_zero_pf k, getElem_zero_nf k⟩, rfl, rfl, rfl, rfl, rfl⟩⟩

/-- A step takes the operation in front of a script (20_memory R81). -/
theorem step_withScript_cons (s : State) (op : PortOp) (rest : List PortOp) :
    step (s.withScript (op :: rest)) = portOp exec op (s.withScript rest) := step_of_script rfl

/-- Settles O14: either event is the pending operation, and both zero the registers; the one that abandons a
command also moves the source on. -/
theorem resetEventZeroesRegisters : Obligations.ResetEventZeroesRegisters :=
  fun s rest cw n =>
    ⟨step_withScript_cons s .reset rest, step_withScript_cons s (.resetDuring cw n) rest⟩

/-! ### `NOP` and idling -/

/-- Opcode 0x00 is of format Z: with a low byte that is not zero its word is illegal (30_encoding R102). -/
theorem not_decodes_of_opcodeZero {w : Word} (hlow : 0x0001 ≤ w.toNat) (hhigh : w.toNat ≤ 0x00FF) :
    ¬ ∃ i, decodeWord w = .ok i := by
  have hopc : opcField w = 0x00 := by
    rw [opcField, eq_zero_iff_toNat, BitVec.extractLsb'_toNat, Nat.shiftRight_eq_div_pow]
    omega
  refine (not_decodes_iff w).mpr (.inr ⟨by rw [hopc]; decide, fun hzero => ?_⟩)
  rw [eq_zero_iff_toNat, BitVec.extractLsb'_toNat, Nat.shiftRight_zero] at hzero
  omega

/-- Settles O16: `NOP` is the one command of opcode 0x00, and the words beside it have a low byte that is not
zero. -/
theorem nopChangesNothing : Obligations.NopChangesNothing :=
  ⟨decodeWord_encode .nop, fun _ => rfl, fun _ hlow hhigh i hdec =>
    not_decodes_of_opcodeZero hlow hhigh ⟨i, hdec⟩⟩

/-- Settles O7: an empty script has no operation for the step to take. -/
theorem stepIdlesWithNothingPending : Obligations.StepIdlesWithNothingPending :=
  fun _ hscript => step_of_script_nil hscript

end Sys2Proof.Machine
end

section
/-! SUPPORT. What a command leaves behind (spec 60_exceptions R305 to R307, 93_implementation_defined U3): zero
scratch, nothing but the code after a failure, no output register it does not produce; and when it stops. -/

namespace Sys2Proof.Machine

/-! ### Scratch -/

/-- A command leaves scratch clear: `NOP` leaves it as it was, every other command zeroes it (10_state R55). -/
theorem exec_scratchClear {i : Instr} {s t : State} (hs : s.ScratchClear) (h : exec i s = .next t) :
    t.ScratchClear := by
  obtain ⟨_, _, _, hscratch, hnop⟩ := commandFrame i s t h
  by_cases hi : i = .nop
  · exact hnop hi ▸ hs
  · exact hscratch hi

theorem runWord_scratchClear {cw : Word} {s t : State} (hs : s.ScratchClear)
    (h : runWord exec cw s = .next t) : t.ScratchClear := by
  cases hdec : decodeWord cw with
  | ok i =>
    rw [runWord_of_decodes exec hdec] at h
    exact exec_scratchClear hs h
  | error e =>
    rw [runWord_of_illegal exec hdec] at h
    cases h
    rfl

/-- Settles O19: a word runs its command or fails as an illegal one, and both leave scratch clear. -/
theorem scratchIsZeroAfterEveryWord : Obligations.ScratchIsZeroAfterEveryWord := by
  intro s t cw rest hs hscript h
  rw [step_of_cmdWrite hscript] at h
  have hclear : t.ScratchClear := runWord_scratchClear (s := s.withScript rest) hs h
  rw [hclear]
  exact ⟨getElem_zero_pf, getElem_zero_nf⟩

/-! ### Failures and stops -/

/-- Settles O20: of the ways a command ends, the failure alone leaves a code other than `ST_OK`. -/
theorem failureDeliversNothing : Obligations.FailureDeliversNothing := by
  intro i s t hnop h hstatus
  rcases exec_next_cases h with ⟨hi, _⟩ | ⟨_, rfl⟩ | ⟨c, rfl⟩ | ⟨o, g, rfl, _⟩
  · exact absurd hi hnop
  · exact absurd rfl hstatus
  · rfl
  · exact absurd rfl hstatus

/-- Settles O23: what does not complete is a command that draws, stuck at a silent answer. -/
theorem commandStopsOnlyOnASilentSource : Obligations.CommandStopsOnlyOnASilentSource := by
  intro i s
  rcases exec_next_or_silent i s with ⟨t, ht⟩ | ⟨hdraw, hsilent, hfault⟩
  · rw [ht]
    exact ⟨nofun, nofun⟩
  · rw [hfault]
    exact ⟨fun _ _ => ⟨hdraw, hsilent⟩, nofun⟩

/-! ### The outputs a command produces -/

/-- The outputs `o` with every register zero that the command does not produce (10_state R56). -/
def producedPart (i : Instr) (o : OutputRegs) : OutputRegs :=
  match i with
  | .nop => o
  | .clr => { OutputRegs.zero with status := o.status }
  | .enc0 | .enc1 | .enc2 | .enc3 | .enc4 | .xor | .pack _ _ =>
    { OutputRegs.zero with status := o.status, blko := o.blko, blkleno := o.blkleno }
  | .dec0 | .dec1 | .dec2 | .dec3 | .dec4 | .decode =>
    { OutputRegs.zero with
      status := o.status, fmto := o.fmto, pino := o.pino, pinleno := o.pinleno }
  | .unpack => { OutputRegs.zero with status := o.status, pino := o.pino, pinleno := o.pinleno }
  | .getfmt => { OutputRegs.zero with status := o.status, fmto := o.fmto }
  | .drv64 | .drv128 =>
    { OutputRegs.zero with status := o.status, fldo := o.fldo, fldleno := o.fldleno }

/-- After a failure only `STATUS` is left, which every command produces (60_exceptions R306). -/
theorem producedPart_failed (i : Instr) (code : Byte) :
    producedPart i { OutputRegs.zero with status := code } = { OutputRegs.zero with status := code } := by
  cases i <;> rfl

/-- The outputs a plan may deliver, over the bytes it may draw. -/
def Plan.MayDeliver (p : Plan) (o : OutputRegs) : Prop := ∃ n out r, p = .deliver n out ∧ o = out r

/-- A plan that completes leaves a code alone, or the outputs it delivers with `ST_OK`. -/
theorem out_of_outcome {p : Plan} {s t : State} (h : p.outcome s = .next t) :
    (∃ code, t.out = { OutputRegs.zero with status := code }) ∨
    (∃ o, p.MayDeliver o ∧ t.out = { o with status := 0x00 }) := by
  cases p with
  | fail c => cases h; exact .inl ⟨c.toByte, rfl⟩
  | deliver n out =>
    simp only [Plan.outcome] at h
    split at h
    · cases h
    · cases h
      exact .inr ⟨_, ⟨n, out, _, rfl, rfl⟩, rfl⟩

theorem mayDeliver_deliver {n : Nat} {out : List Byte → OutputRegs} {o : OutputRegs}
    (h : (Plan.deliver n out).MayDeliver o) : ∃ r, o = out r := by
  obtain ⟨_, _, r, heq, rfl⟩ := h
  cases heq
  exact ⟨r, rfl⟩

/-- A checked plan delivers only past its checks. -/
theorem mayDeliver_checked {err : Option Code} {n : Nat} {out : List Byte → OutputRegs} {o : OutputRegs}
    (h : (Plan.checked err n out).MayDeliver o) : ∃ r, o = out r := by
  cases err with
  | some c => obtain ⟨_, _, _, heq, _⟩ := h; cases heq
  | none => exact mayDeliver_deliver h

/-- `ENC1` delivers a format-1 block, wherever the padding bytes come from (44_encode R204). -/
theorem mayDeliver_enc1Plan {inp : InputRegs} {o : OutputRegs} (h : (enc1Plan inp).MayDeliver o) :
    ∃ S, o = encodedBlock inp .f1 S := by
  unfold enc1Plan at h
  split at h
  · exact mayDeliver_checked h
  · obtain ⟨_, ho⟩ := mayDeliver_checked h
    exact ⟨_, ho⟩

/-- A dispatcher command delivers what it does for the format identified (46_dispatch R261, R263). -/
theorem mayDeliver_identifiedPlan {inp : InputRegs} {onFormat : Format → Plan} {o : OutputRegs}
    (h : (identifiedPlan inp onFormat).MayDeliver o) : ∃ fmt, (onFormat fmt).MayDeliver o := by
  unfold identifiedPlan at h
  split at h
  · obtain ⟨_, _, _, heq, _⟩ := h; cases heq
  · exact ⟨_, h⟩

/-- `XOR` produces a block of either length (43_combiner R192). -/
theorem xorBlock_eq_producedPart (inp : InputRegs) :
    { xorBlock inp with status := 0x00 } = producedPart .xor { xorBlock inp with status := 0x00 } := by
  unfold xorBlock
  split <;> rfl

/-- What the plan of a command delivers are outputs that the command produces (10_state R56). -/
theorem mayDeliver_eq_producedPart {i : Instr} {inp : InputRegs} {p : Plan} {o : OutputRegs}
    (hp : commandPlan i inp = some p) (h : p.MayDeliver o) :
    { o with status := 0x00 } = producedPart i { o with status := 0x00 } := by
  cases i with
  | nop => cases hp
  | clr => cases hp
  | enc1 => cases hp; obtain ⟨_, rfl⟩ := mayDeliver_enc1Plan h; rfl
  | getfmt =>
    cases hp
    obtain ⟨_, hfmt⟩ := mayDeliver_identifiedPlan h
    obtain ⟨_, rfl⟩ := mayDeliver_deliver hfmt
    rfl
  | decode =>
    cases hp
    obtain ⟨_, hfmt⟩ := mayDeliver_identifiedPlan h
    obtain ⟨_, rfl⟩ := mayDeliver_checked hfmt
    rfl
  | xor => cases hp; obtain ⟨_, rfl⟩ := mayDeliver_checked h; exact xorBlock_eq_producedPart inp
  | _ => cases hp; obtain ⟨_, rfl⟩ := mayDeliver_checked h; rfl

/-- Every output register a command does not produce is zero after it (60_exceptions R305). -/
theorem exec_out_eq_producedPart {i : Instr} {s t : State} (h : exec i s = .next t) :
    t.out = producedPart i t.out := by
  rcases commandPlan_cases i s.inp with rfl | rfl | ⟨p, hp⟩
  · rfl
  · cases h; rfl
  · rw [exec_of_commandPlan hp] at h
    rcases out_of_outcome h with ⟨code, hout⟩ | ⟨o, ho, hout⟩
    · rw [hout, producedPart_failed]
    · rw [hout]; exact mayDeliver_eq_producedPart hp ho

/-- Settles O22: the produced part of each command, group by group of the table of R56; after `CLR` the block
registers are zero, as the others are. -/
theorem outputsNotProducedAreZero : Obligations.OutputsNotProducedAreZero := by
  intro i s t h
  have hout := exec_out_eq_producedPart h
  refine ⟨?_, ?_, ?_, ?_, ?_⟩
  · rintro (rfl | rfl | rfl | rfl | rfl | rfl | rfl | ⟨a, b, rfl⟩)
    · cases h; rfl
    all_goals exact hout
  · rintro (rfl | rfl | rfl | rfl | rfl | rfl) <;> exact hout
  · rintro rfl; exact hout
  · rintro rfl; exact hout
  · rintro (rfl | rfl) <;> exact hout

end Sys2Proof.Machine
end

section
/-! SUPPORT. The random-byte source in order (spec 42_padding R170, R171, 30_encoding R110): supplied answers
first, each once, then the free values; an `RNG` statement supplies in its turn. -/

namespace Sys2Proof.Machine

/-- A request that is answered, and the requests behind it. -/
theorem drawBytes_succ {n : Nat} {g g₁ g₂ : RngSource} {b : Byte} {bs : List Byte}
    (hfirst : rngByte g = some (b, g₁)) (hrest : drawBytes n g₁ = some (bs, g₂)) :
    drawBytes (n + 1) g = some (b :: bs, g₂) := by
  simp only [drawBytes, hfirst, hrest]

/-- Supplied bytes are drawn in order, each once. -/
theorem drawBytes_supplied (bs : List Byte) (rest : List (Option Byte)) (d : Nat) :
    drawBytes bs.length { answers := bs.map some ++ rest, drawn := d } =
      some (bs, { answers := rest, drawn := d + bs.length }) := by
  induction bs generalizing d with
  | nil => rfl
  | cons b bs ih =>
    have hcount : d + (b :: bs).length = d + 1 + bs.length := by rw [List.length_cons]; omega
    rw [hcount]
    exact drawBytes_succ rfl (ih (d + 1))

/-- With nothing supplied the draws are the free values of the request numbers (log entry 2). -/
theorem drawBytes_free (n d : Nat) :
    drawBytes n { answers := [], drawn := d } =
      some ((List.range n).map fun k => Config.rngByte (d + k), { answers := [], drawn := d + n }) := by
  induction n generalizing d with
  | zero => rfl
  | succ n ih =>
    rw [drawBytes_succ rfl (ih (d + 1)), List.range_succ_eq_map, List.map_cons, List.map_map]
    simp only [Function.comp_def, Nat.add_zero, Nat.succ_eq_add_one, Nat.add_assoc, Nat.add_comm 1]

/-- Settles O29: draws run down the supplied answers and then the request numbers; `RNG` is one operation of
the script, and its step moves nothing but the source. -/
theorem answersAreDrawnInOrder : Obligations.AnswersAreDrawnInOrder :=
  fun bs rest d n => ⟨drawBytes_supplied bs rest d, drawBytes_free n d,
    fun s tail _ => ⟨rfl, rfl, step_withScript_cons s (.supply bs) tail⟩⟩

end Sys2Proof.Machine
end
